-- ==== Sys2Proof/Word.lean ====
section
/-! DEFINITION. The word types of the engine (00_scope.md rules R5, R9 and section 7): bytes, 32-bit words, byte
sequences and register files. Every quantity is unsigned; `+` on `Word` is the spec's `+32` (R254). -/
namespace Sys2Proof

/-- `u8`: an unsigned byte, bits 7 down to 0. -/
abbrev Byte := BitVec 8

/-- `u32`: an unsigned 32-bit word, bits 31 down to 0. -/
abbrev Word := BitVec 32

/-- `bytes[n]` for any n: a byte sequence, indexed from 0. -/
abbrev Bytes := List Byte

/-- A register file of `n` words, indexed from 0. -/
abbrev Words (n : Nat) := Vector Word n

end Sys2Proof
end

