-- ==== Sys2Proof/Syntax.lean ====
section
/-! DEFINITION. The 28 commands of the engine, one constructor per row of the opcode map (30_encoding.md rule R96,
spec/opcode_table.json). Operands are the fields of the command word as they stand in it: 4-bit unsigned values (R93 to R95). -/
namespace Sys2Proof

inductive Instr where
  /-- No operation (48_system.md R280). -/
  | nop
  /-- Return to the reset state (48_system.md R281). -/
  | rst
  /-- Expand the key and store the schedule (41_key_schedule.md R141). -/
  | kexp
  /-- Copy round key `r` to the output buffer (41_key_schedule.md R142). -/
  | strk (r : BitVec 4)
  /-- Load the step register S (42_block_transform.md R151). -/
  | lds
  /-- Store the step register S (42_block_transform.md R152). -/
  | sts
  /-- XOR round key `r` into S (42_block_transform.md R155). -/
  | ark (r : BitVec 4)
  /-- SubBytes on S (42_block_transform.md R157). -/
  | subb
  /-- InvSubBytes on S (42_block_transform.md R159). -/
  | isubb
  /-- ShiftRows on S (42_block_transform.md R161). -/
  | shrow
  /-- InvShiftRows on S (42_block_transform.md R163). -/
  | ishrow
  /-- MixColumns on S (42_block_transform.md R165). -/
  | mixc
  /-- InvMixColumns on S (42_block_transform.md R167). -/
  | imixc
  /-- Encrypt one block (42_block_transform.md R172). -/
  | encb
  /-- Decrypt one block (42_block_transform.md R175). -/
  | decb
  /-- Pad and encrypt in CBC mode (43_cbc_mode.md R193). -/
  | cbce
  /-- Decrypt in CBC mode and strip the padding (43_cbc_mode.md R196). -/
  | cbcd
  /-- Pad the data buffer (44_padding.md R214). -/
  | pad
  /-- Check and strip the padding (44_padding.md R215). -/
  | unpad
  /-- Initialise the stream state X (45_stream_state.md R228). -/
  | sinit
  /-- Advance the block counter X[12] (45_stream_state.md R231). -/
  | sinc
  /-- Copy X into the working buffer W (46_round_function.md R242). -/
  | ldw
  /-- One quarter-round on W[a], W[b], W[c], W[d] (46_round_function.md R244). -/
  | qr (a b c d : BitVec 4)
  /-- One iteration of eight quarter-rounds on W (46_round_function.md R246). -/
  | drnd
  /-- Feed-forward addition of X into W (46_round_function.md R248). -/
  | ffwd
  /-- Serialise W (46_round_function.md R250). -/
  | serw
  /-- One keystream block from X (46_round_function.md R252). -/
  | sblk
  /-- XOR the data with the keystream and advance the counter (47_stream_combiner.md R266). -/
  | sapply
  deriving DecidableEq, Repr

end Sys2Proof
end

