-- ==== Sys2Proof/WellFormed.lean ====
section
/-! DEFINITION. Which operands a command can complete with. Every `Instr` has an encoding (its fields are the 4-bit fields of
the word, R93, R94), so nothing is needed for encoding; but the spec names operands that decode and then fail
`IllegalCommand` whatever the state: a round index above the largest NR, 14 (R93 "so r = 15 always fails"), and repeated
QR indices (R244, R297). An instruction without them is well formed. -/
namespace Sys2Proof

/-- R93, R297: a round index that some schedule has (NR is at most 14). -/
def roundIndexOk (r : BitVec 4) : Bool := r ≤ 14#4

/-- R244: four pairwise distinct word indices. -/
def indicesDistinct (a b c d : BitVec 4) : Bool :=
  a ≠ b && a ≠ c && a ≠ d && b ≠ c && b ≠ d && c ≠ d

/-- The command has operands with which it can complete in some state (R297). -/
def Instr.wellFormed : Instr → Bool
  | .strk r => roundIndexOk r
  | .ark r => roundIndexOk r
  | .qr a b c d => indicesDistinct a b c d
  | .nop | .rst | .kexp | .lds | .sts | .subb | .isubb | .shrow | .ishrow | .mixc | .imixc | .encb | .decb | .cbce | .cbcd
  | .pad | .unpad | .sinit | .sinc | .ldw | .drnd | .ffwd | .serw | .sblk | .sapply => true

end Sys2Proof
end

