-- ==== Sys2Proof/Decode.lean ====
section
/-! DEFINITION. Decoding of the 32-bit command word and its encoder (30_encoding.md rules R90 to R98). Decoding is total and
rejects by name; a rejected word executes as `raise IllegalCommand` (R97), which Machine/Command.lean does. -/
namespace Sys2Proof

/-- Why a word is no command, in the order R97 checks it. -/
inductive DecodeError where
  /-- (1) bits [31:24] are not zero. -/
  | zeroFieldSet
  /-- (2) OPC is not one of the 28 opcodes. -/
  | reservedOpcode
  /-- (3) format N with a nonzero ARG. -/
  | argumentSet
  /-- (4) format R with a nonzero bit in [23:12]. -/
  | roundFieldSet
  deriving DecidableEq, Repr

/-- The format of an opcode with the command it assembles (R92 to R94). -/
inductive Format where
  /-- No argument (R92). -/
  | n (i : Instr)
  /-- Round index in bits [11:8] (R93). -/
  | r (f : BitVec 4 → Instr)
  /-- Four word indices in bits [11:8], [15:12], [19:16], [23:20] (R94). -/
  | q (f : BitVec 4 → BitVec 4 → BitVec 4 → BitVec 4 → Instr)

/-- The opcode map (R96). -/
def opcodeMap (opc : Byte) : Option Format :=
  match opc with
  | 0x00#8 => some (.n .nop)
  | 0x01#8 => some (.n .rst)
  | 0x10#8 => some (.n .kexp)
  | 0x11#8 => some (.r .strk)
  | 0x12#8 => some (.n .lds)
  | 0x13#8 => some (.n .sts)
  | 0x14#8 => some (.r .ark)
  | 0x15#8 => some (.n .subb)
  | 0x16#8 => some (.n .isubb)
  | 0x17#8 => some (.n .shrow)
  | 0x18#8 => some (.n .ishrow)
  | 0x19#8 => some (.n .mixc)
  | 0x1A#8 => some (.n .imixc)
  | 0x1B#8 => some (.n .encb)
  | 0x1C#8 => some (.n .decb)
  | 0x20#8 => some (.n .cbce)
  | 0x21#8 => some (.n .cbcd)
  | 0x28#8 => some (.n .pad)
  | 0x29#8 => some (.n .unpad)
  | 0x30#8 => some (.n .sinit)
  | 0x31#8 => some (.n .sinc)
  | 0x38#8 => some (.n .ldw)
  | 0x39#8 => some (.q .qr)
  | 0x3A#8 => some (.n .drnd)
  | 0x3B#8 => some (.n .ffwd)
  | 0x3C#8 => some (.n .serw)
  | 0x3D#8 => some (.n .sblk)
  | 0x40#8 => some (.n .sapply)
  | _ => none

/-- The decoder, in the order of R97. -/
def decode (w : Word) : Except DecodeError Instr :=
  if w.extractLsb' 24 8 ≠ 0#8 then .error .zeroFieldSet
  else
    match opcodeMap (w.extractLsb' 0 8) with
    | none => .error .reservedOpcode
    | some (.n i) => if w.extractLsb' 8 16 ≠ 0#16 then .error .argumentSet else .ok i
    | some (.r f) => if w.extractLsb' 12 12 ≠ 0#12 then .error .roundFieldSet else .ok (f (w.extractLsb' 8 4))
    | some (.q f) =>
      .ok (f (w.extractLsb' 8 4) (w.extractLsb' 12 4) (w.extractLsb' 16 4) (w.extractLsb' 20 4))

/-- The opcode of a command (R96). -/
def opcode : Instr → Byte
  | .nop => 0x00#8
  | .rst => 0x01#8
  | .kexp => 0x10#8
  | .strk _ => 0x11#8
  | .lds => 0x12#8
  | .sts => 0x13#8
  | .ark _ => 0x14#8
  | .subb => 0x15#8
  | .isubb => 0x16#8
  | .shrow => 0x17#8
  | .ishrow => 0x18#8
  | .mixc => 0x19#8
  | .imixc => 0x1A#8
  | .encb => 0x1B#8
  | .decb => 0x1C#8
  | .cbce => 0x20#8
  | .cbcd => 0x21#8
  | .pad => 0x28#8
  | .unpad => 0x29#8
  | .sinit => 0x30#8
  | .sinc => 0x31#8
  | .ldw => 0x38#8
  | .qr _ _ _ _ => 0x39#8
  | .drnd => 0x3A#8
  | .ffwd => 0x3B#8
  | .serw => 0x3C#8
  | .sblk => 0x3D#8
  | .sapply => 0x40#8

/-- The word of a command (R95): `OPC | (r << 8)` in format R, `OPC | (a << 8) | (b << 12) | (c << 16) | (d << 20)` in
format Q, `OPC` in format N. -/
def encode (i : Instr) : Word :=
  match i with
  | .strk r | .ark r => (opcode i).setWidth 32 ||| (r.setWidth 32 <<< 8)
  | .qr a b c d =>
    (opcode i).setWidth 32 ||| (a.setWidth 32 <<< 8) ||| (b.setWidth 32 <<< 12) ||| (c.setWidth 32 <<< 16)
      ||| (d.setWidth 32 <<< 20)
  | .nop | .rst | .kexp | .lds | .sts | .subb | .isubb | .shrow | .ishrow | .mixc | .imixc | .encb | .decb | .cbce | .cbcd
  | .pad | .unpad | .sinit | .sinc | .ldw | .drnd | .ffwd | .serw | .sblk | .sapply => (opcode i).setWidth 32

/-- The instruction the decoder reads from the low `nbits` bits of `w`, the bits above them zero. A command word is one
32-bit number with no byte order (R76, R90), so the opcode table's bit numbers are the word's own. -/
def decodeTableWord (nbits w : Nat) : Option Instr :=
  match decode (BitVec.ofNat 32 (w % 2 ^ nbits)) with
  | .ok i => some i
  | .error _ => none

end Sys2Proof
end

