-- ==== Sys2Proof/Machine/Bytes.lean ====
section
/-! DEFINITION. Byte order, bit fields and rotation (00_scope.md section 7, 20_memory.md rules R74, R75). -/
namespace Sys2Proof.Machine

/-- `be32(b0, b1, b2, b3)`: b0 is the most significant byte. -/
def be32 (b0 b1 b2 b3 : Byte) : Word := b0 ++ b1 ++ b2 ++ b3

/-- `le32(b0, b1, b2, b3)`: b0 is the least significant byte. -/
def le32 (b0 b1 b2 b3 : Byte) : Word := b3 ++ b2 ++ b1 ++ b0

/-- `byte(w, r) = w[31-8r : 24-8r]` for r in 0..3: byte 0 is the most significant. -/
def byteOf (w : Word) (r : Nat) : Byte := w.extractLsb' (24 - 8 * r) 8

/-- `bebytes(w) = [w[31:24], w[23:16], w[15:8], w[7:0]]`. -/
def bebytes (w : Word) : Bytes := [w.extractLsb' 24 8, w.extractLsb' 16 8, w.extractLsb' 8 8, w.extractLsb' 0 8]

/-- `lebytes(w) = [w[7:0], w[15:8], w[23:16], w[31:24]]`. -/
def lebytes (w : Word) : Bytes := [w.extractLsb' 0 8, w.extractLsb' 8 8, w.extractLsb' 16 8, w.extractLsb' 24 8]

/-- `rotl32(w, n)` for 0 < n < 32. -/
def rotl32 (w : Word) (n : Nat) : Word := (w <<< n) ||| (w >>> (32 - n))

/-- Byte `i` of a sequence that has one; every use is inside the sequence's length. -/
def byteAt (b : Bytes) (i : Nat) : Byte := b.getD i 0#8

/-- Word `i` of a byte sequence, big-endian (R74). -/
def beWord (b : Bytes) (i : Nat) : Word :=
  be32 (byteAt b (4 * i)) (byteAt b (4 * i + 1)) (byteAt b (4 * i + 2)) (byteAt b (4 * i + 3))

/-- Word `i` of a byte sequence, little-endian (R75). -/
def leWord (b : Bytes) (i : Nat) : Word :=
  le32 (byteAt b (4 * i)) (byteAt b (4 * i + 1)) (byteAt b (4 * i + 2)) (byteAt b (4 * i + 3))

/-- `a ^ b` on two byte sequences, bytewise (00_scope.md section 7); the result has the shorter length. -/
def xorBytes (a b : Bytes) : Bytes := List.zipWith (· ^^^ ·) a b

end Sys2Proof.Machine
end

