-- ==== Sys2Proof/Config.lean ====
section
/-! DEFINITION. The one implementation parameter, DCAP (00_scope.md rule R6): the capacity in bytes of DIN and of DOUT,
with 64 <= DCAP < 2^32. The machine holds the value in the constant CSR CAP (`State.cap`), so the model takes DCAP as an
argument (`State.resetWith`), and nothing but the state right after reset refers to the value named here. -/
namespace Sys2Proof

/-- The DCAP of `State.reset`: DESIGN CHOICE, the value R6 suggests (notes/assumptions/1.md). -/
def Config.dcap : Word := 4096#32

/-- The least DCAP the spec allows (R6: `64 <= DCAP < 2^32`; the upper bound is the width of CSR CAP). -/
def Config.dcapMin : Word := 64#32

end Sys2Proof
end

