-- ==== Sys2Proof/Machine/State.lean ====
section
/-! DEFINITION. The complete state of the engine (10_state.md rule R20) with the host's port, and the state right after reset
(70_reset_and_hazards.md rules R330, R331). Every field is plain data. -/
namespace Sys2Proof.Machine

/-- The six error kinds (60_exceptions.md R290): five of the source and `IllegalCommand`. -/
inductive ErrorKind where
  | invalidKeySize
  | invalidIVSize
  | invalidBlockSize
  | invalidCiphertextLength
  | invalidPadding
  | illegalCommand
  deriving DecidableEq, Repr

/-- The eleven control and status registers (10_state.md R21). -/
inductive Csr where
  | cmd | status | err | klen | ivlen | nlen | ctr0 | dlen | olen | nr | cap
  deriving DecidableEq, Repr

/-- The five byte buffers (20_memory.md R60). -/
inductive Buffer where
  | key | iv | nonce | din | dout
  deriving DecidableEq, Repr

/-- The five actions of the host: the whole host interface (20_memory.md R61 to R65). CSR numbers and buffer indices are
numbers without a bound; the ones that hit nothing are ignored or read 0 (R21, R63). -/
inductive HostAction where
  /-- `HostReadCsr(n)`. -/
  | readCsr (n : Nat)
  /-- `HostWriteCsr(n, v)`; a write of CMD executes a command (R22). -/
  | writeCsr (n : Nat) (v : Word)
  /-- `HostReadByte(buf, i)`. -/
  | readByte (buf : Buffer) (i : Nat)
  /-- `HostWriteByte(buf, i, v)`. -/
  | writeByte (buf : Buffer) (i : Nat) (v : Byte)
  /-- `HostReset`. -/
  | reset
  deriving DecidableEq, Repr

/-- What a host read returns: a whole CSR or one byte (20_memory.md R65). -/
inductive HostAnswer where
  | csr (v : Word)
  | byte (v : Byte)
  deriving DecidableEq, Repr

/-- The content of a byte buffer: the cells that are not zero, addresses strictly rising. A byte that is not listed reads
0, the reset value of every buffer byte (R331). The canonical form is `Memory.wf` (Machine/Ops.lean). -/
abbrev Memory := List Host.Cell

structure State where
  /-- CSR ERR, the 3 bits in use (R25). -/
  err : BitVec 3
  /-- CSR KLEN (R26). -/
  klen : Word
  /-- CSR IVLEN (R27). -/
  ivlen : Word
  /-- CSR NLEN (R28). -/
  nlen : Word
  /-- CSR CTR0 (R29). -/
  ctr0 : Word
  /-- CSR DLEN (R30). -/
  dlen : Word
  /-- CSR OLEN (R31). -/
  olen : Word
  /-- CSR NR, the 4 bits in use (R32). -/
  nr : BitVec 4
  /-- CSR CAP: the constant DCAP (R6, R33). -/
  cap : Word
  /-- Valid flag of RK (R24). -/
  rkv : Bool
  /-- Valid flag of S (R24). -/
  sv : Bool
  /-- Valid flag of X (R24). -/
  xv : Bool
  /-- Valid flag of W (R24). -/
  wv : Bool
  /-- Buffer KEY, 32 bytes (R34). -/
  key : Memory
  /-- Buffer IV, 16 bytes (R35). -/
  iv : Memory
  /-- Buffer NONCE, 12 bytes (R36). -/
  nonce : Memory
  /-- Buffer DIN, DCAP bytes (R37). -/
  din : Memory
  /-- Buffer DOUT, DCAP bytes (R38). -/
  dout : Memory
  /-- RK[0..59], the round key schedule (R40). -/
  rk : Words 60
  /-- S[0..3], the cipher state of the step commands (R42). -/
  s : Words 4
  /-- X[0..15], the stream state (R44). -/
  x : Words 16
  /-- W[0..15], the working buffer of the step commands (R46). -/
  w : Words 16
  /-- The model's own field, not the spec's: the host's actions still to come, in their order (R71). The engine has no
  program counter (R48); this list is what a step takes its next action from (notes/assumptions/2.md). -/
  pending : List HostAction
  /-- The model's own field, not the spec's: what the host's latest action returned (notes/assumptions/3.md). -/
  response : Option HostAnswer
  deriving DecidableEq, Repr

/-- The reasons the machine stops with a fault: none. R306: "There is no halt, stuck or lock-up state"; an error of the spec
is a next state with its code in ERR (R300). -/
inductive Fault
  deriving DecidableEq, Repr

/-- The reasons a step is refused. -/
inductive Refusal where
  /-- Raised by an arm of `exec` whose instruction has no meaning yet (safe: the machine stops). No arm raises it now. -/
  | notModelled (mnemonic : String)
  deriving DecidableEq, Repr

/-- The state right after reset of an engine whose data buffers hold `dcap` bytes: every piece of state is zero, CAP reads
DCAP (R330, R331), and the host has no action pending (R333: it "waits for host actions"). -/
def State.resetWith (dcap : Word) : State where
  err := 0#3
  klen := 0#32
  ivlen := 0#32
  nlen := 0#32
  ctr0 := 0#32
  dlen := 0#32
  olen := 0#32
  nr := 0#4
  cap := dcap
  rkv := false
  sv := false
  xv := false
  wv := false
  key := []
  iv := []
  nonce := []
  din := []
  dout := []
  rk := Vector.replicate 60 0#32
  s := Vector.replicate 4 0#32
  x := Vector.replicate 16 0#32
  w := Vector.replicate 16 0#32
  pending := []
  response := none

/-- The state right after reset, with the DCAP named in Config. -/
def State.reset : State := State.resetWith Config.dcap

/-- What a command or a step answers. -/
abbrev Result := Host.Outcome State Fault Refusal

end Sys2Proof.Machine
end

