-- ==== Sys2Proof/Machine/Ops.lean ====
section
/-! DEFINITION. The named operations: byte buffers in canonical form, the updates of the state, the output discipline
(20_memory.md R67), raising an error and completing (60_exceptions.md R300, R301), and reset (70_reset_and_hazards.md R330).

There is no trap to a handler and no return from one (R304): raising an error is the engine's whole exception entry. -/
namespace Sys2Proof.Machine

/-! ### Byte buffers -/

/-- The byte at an address; 0 where nothing is listed (R331). -/
def Memory.read : Memory → Nat → Byte
  | [], _ => 0#8
  | (b, v) :: m, a => if b = a then v else Memory.read m a

/-- Sets one byte and keeps the canonical form: writing 0 removes the cell (R62). -/
def Memory.write : Memory → Nat → Byte → Memory
  | [], a, v => if v = 0#8 then [] else [(a, v)]
  | (b, u) :: m, a, v =>
    if a < b then (if v = 0#8 then (b, u) :: m else (a, v) :: (b, u) :: m)
    else if a = b then (if v = 0#8 then m else (a, v) :: m)
    else (b, u) :: Memory.write m a v

/-- The buffer that holds the sequence from address `a` on and zero everywhere else. -/
def Memory.ofBytesFrom : Nat → Bytes → Memory
  | _, [] => []
  | a, v :: vs => if v = 0#8 then Memory.ofBytesFrom (a + 1) vs else (a, v) :: Memory.ofBytesFrom (a + 1) vs

/-- The buffer that holds the sequence from address 0 on and zero everywhere else. -/
def Memory.ofBytes (v : Bytes) : Memory := Memory.ofBytesFrom 0 v

/-- `MemRead(buf, off, n)`: the bytes `buf[off..off+n)` (00_scope.md section 8). -/
def Memory.slice (m : Memory) (off n : Nat) : Bytes := (List.range n).map fun i => m.read (off + i)

/-- The canonical form: addresses strictly rising, no cell equal to what an unlisted address reads as. -/
abbrev Memory.wf (m : Memory) : Prop := m.Pairwise (fun c d => c.1 < d.1) ∧ ∀ c ∈ m, c.2 ≠ 0#8

/-- Every listed address is below `n`. -/
abbrev Memory.below (m : Memory) (n : Nat) : Prop := ∀ c ∈ m, c.1 < n

/-! ### Updates of the state -/

/-- `ERR <- e` (R25). -/
def State.setErr (st : State) (e : BitVec 3) : State := { st with err := e }

/-- `Out(v)` (R67): DOUT holds v and zero bytes after it, OLEN its length. -/
def State.out (st : State) (v : Bytes) : State :=
  { st with dout := Memory.ofBytes v, olen := BitVec.ofNat 32 v.length }

/-- `RK <- rk; NR <- n; RKV <- 1` (R141). -/
def State.loadSchedule (st : State) (rk : Words 60) (n : BitVec 4) : State :=
  { st with rk := rk, nr := n, rkv := true }

/-- `S[c] <- b[c] for c in 0..3`. -/
def State.setS (st : State) (b : Words 4) : State := { st with s := b }

/-- `S[c] <- b[c] for c in 0..3; SV <- 1` (R151). -/
def State.loadS (st : State) (b : Words 4) : State := { st with s := b, sv := true }

/-- `X[i] <- v[i] for i in 0..15`. -/
def State.setX (st : State) (v : Words 16) : State := { st with x := v }

/-- `X[i] <- v[i] for i in 0..15; XV <- 1` (R228). -/
def State.loadX (st : State) (v : Words 16) : State := { st with x := v, xv := true }

/-- `W[i] <- v[i] for i in 0..15`. -/
def State.setW (st : State) (v : Words 16) : State := { st with w := v }

/-- `W[i] <- v[i] for i in 0..15; WV <- 1` (R242). -/
def State.loadW (st : State) (v : Words 16) : State := { st with w := v, wv := true }

/-- The reset of R330: every piece of the engine's state takes its reset value, the constant CAP keeps its value. The host's
port is not part of the engine and stays. -/
def State.resetEngine (st : State) : State :=
  { State.resetWith st.cap with pending := st.pending, response := st.response }

/-- What the host's action returned: a value for a read, nothing otherwise. -/
def State.respond (st : State) (a : Option HostAnswer) : State := { st with response := a }

/-! ### Errors and completion -/

/-- The code of an error kind in ERR (R290). -/
def ErrorKind.code : ErrorKind → BitVec 3
  | .invalidKeySize => 1#3
  | .invalidIVSize => 2#3
  | .invalidBlockSize => 3#3
  | .invalidCiphertextLength => 4#3
  | .invalidPadding => 5#3
  | .illegalCommand => 6#3

/-- `raise E` (R300): the command ends, ERR takes the code, nothing else changes. -/
def raise (e : ErrorKind) (st : State) : Result := .next (st.setErr e.code)

/-- The end of a command that raised no error: `ERR <- 0` (R301). -/
def complete (st : State) : Result := .next (st.setErr 0#3)

/-- `require c else E` (00_scope.md section 8): the rest of the command runs only where `c` holds of the state before it. -/
def require (c : Prop) [Decidable c] (e : ErrorKind) (st : State) (rest : c → Result) : Result :=
  if h : c then rest h else raise e st

/-- A function-layer result used by a command: `fail E` of the function is `raise E` of the command (00_scope.md section 8). -/
def attempt {α : Type} (r : Except ErrorKind α) (st : State) (rest : α → Result) : Result :=
  match r with
  | .ok a => rest a
  | .error e => raise e st

end Sys2Proof.Machine
end

