-- ==== Sys2Proof/Machine/Operands.lean ====
section
/-! DEFINITION. The operand forms of the commands: which part of a buffer, register file or command word a command reads, and
the capacity condition on DIN (10_state.md R34 to R42, 20_memory.md R69, 60_exceptions.md R297, R299). -/
namespace Sys2Proof.Machine

/-- The key operand KEY[0..KLEN) (R34); a command reads it only after it has checked KLEN. -/
def State.keyOperand (st : State) : Bytes := st.key.slice 0 st.klen.toNat

/-- The IV operand IV[0..16) (R35). -/
def State.ivOperand (st : State) : Bytes := st.iv.slice 0 16

/-- The nonce operand NONCE[0..NLEN) (R36). -/
def State.nonceOperand (st : State) : Bytes := st.nonce.slice 0 st.nlen.toNat

/-- The data operand DIN[0..DLEN) (R37, R69). -/
def State.dataOperand (st : State) : Bytes := st.din.slice 0 st.dlen.toNat

/-- The one-block data operand DIN[0..16) of LDS, ENCB and DECB. -/
def State.blockOperand (st : State) : Bytes := st.din.slice 0 16

/-- `DLEN <= DCAP` (R299). -/
abbrev State.dataFits (st : State) : Prop := st.dlen.toNat ≤ st.cap.toNat

/-- `DLEN + 16 - (DLEN mod 16)`: the length of the padded data (R69). -/
def State.paddedLength (st : State) : Nat := st.dlen.toNat + 16 - st.dlen.toNat % 16

/-- The padded data fit DOUT (R299). -/
abbrev State.paddedFits (st : State) : Prop := st.paddedLength ≤ st.cap.toNat

/-- Word RK[4r + c] of the schedule. Every round a command uses is at most NR, so at most 14 (R32), and its words lie inside
RK[0..59]. -/
def roundKeyWord (rk : Words 60) (r c : Nat) : Word := rk.getD (4 * r + c) 0#32

/-- The word index of a QR operand: `zext` of its four bits (R95). -/
def wordIndex (a : BitVec 4) : Fin 16 := a.toFin

end Sys2Proof.Machine
end

