-- ==== Sys2Proof/Machine/BlockTransform.lean ====
section
/-! DEFINITION. The block transform: the state layout, the four steps and their inverses, the two block functions
(42_block_transform.md rules R153 to R176), and the commands LDS, STS, ARK, SUBB, ISUBB, SHROW, ISHROW, MIXC, IMIXC, ENCB
and DECB. -/
namespace Sys2Proof.Machine

/-! ### State layout -/

/-- Four words of a block, big-endian: word c is column c of the matrix (R153). -/
def loadState (b : Bytes) : Words 4 := Vector.ofFn fun c => beWord b c

/-- The 16 bytes of four words (R153). -/
def storeState (v : Words 4) : Bytes := bebytes v[0] ++ bebytes v[1] ++ bebytes v[2] ++ bebytes v[3]

/-! ### The steps -/

/-- AddRoundKey (R154). -/
def addRoundKey (v : Words 4) (rk : Words 60) (r : Nat) : Words 4 :=
  Vector.ofFn fun c => v[c] ^^^ roundKeyWord rk r c

/-- SubBytes (R156). -/
def subBytes (v : Words 4) : Words 4 := Vector.ofFn fun c => subWord v[c]

/-- InvSubBytes (R156). -/
def invSubBytes (v : Words 4) : Words 4 := Vector.ofFn fun c => invSubWord v[c]

/-- ShiftRows: row r rotates left by r columns; column indices are modulo 4 (R160). -/
def shiftRows (v : Words 4) : Words 4 :=
  Vector.ofFn fun c : Fin 4 => be32 (byteOf v[c] 0) (byteOf v[c + 1] 1) (byteOf v[c + 2] 2) (byteOf v[c + 3] 3)

/-- InvShiftRows: row r rotates right by r columns; column indices are modulo 4 (R160). -/
def invShiftRows (v : Words 4) : Words 4 :=
  Vector.ofFn fun c : Fin 4 => be32 (byteOf v[c] 0) (byteOf v[c + 3] 1) (byteOf v[c + 2] 2) (byteOf v[c + 1] 3)

/-- MixColumn on the column a0, a1, a2, a3: the matrix [2,3,1,1;1,2,3,1;1,1,2,3;3,1,1,2] (R164). -/
def mixColumn (a0 a1 a2 a3 : Byte) : Word :=
  be32 (gmul a0 2 ^^^ gmul a1 3 ^^^ a2 ^^^ a3)
    (a0 ^^^ gmul a1 2 ^^^ gmul a2 3 ^^^ a3)
    (a0 ^^^ a1 ^^^ gmul a2 2 ^^^ gmul a3 3)
    (gmul a0 3 ^^^ a1 ^^^ a2 ^^^ gmul a3 2)

/-- InvMixColumn: the inverse matrix [14,11,13,9;9,14,11,13;13,9,14,11;11,13,9,14] (R166). -/
def invMixColumn (a0 a1 a2 a3 : Byte) : Word :=
  be32 (gmul a0 14 ^^^ gmul a1 11 ^^^ gmul a2 13 ^^^ gmul a3 9)
    (gmul a0 9 ^^^ gmul a1 14 ^^^ gmul a2 11 ^^^ gmul a3 13)
    (gmul a0 13 ^^^ gmul a1 9 ^^^ gmul a2 14 ^^^ gmul a3 11)
    (gmul a0 11 ^^^ gmul a1 13 ^^^ gmul a2 9 ^^^ gmul a3 14)

/-- MixColumn on a column held as a word. -/
def mixWord (w : Word) : Word := mixColumn (byteOf w 0) (byteOf w 1) (byteOf w 2) (byteOf w 3)

/-- InvMixColumn on a column held as a word. -/
def invMixWord (w : Word) : Word := invMixColumn (byteOf w 0) (byteOf w 1) (byteOf w 2) (byteOf w 3)

/-- MixColumns (R164). -/
def mixColumns (v : Words 4) : Words 4 := Vector.ofFn fun c => mixWord v[c]

/-- InvMixColumns (R166). -/
def invMixColumns (v : Words 4) : Words 4 := Vector.ofFn fun c => invMixWord v[c]

/-! ### The block functions -/

/-- One full round of `encryptBlock`, with round key `r` (R170). -/
def encryptRound (rk : Words 60) (v : Words 4) (r : Nat) : Words 4 :=
  addRoundKey (mixColumns (shiftRows (subBytes v))) rk r

/-- One full round of `decryptBlock`, with round key `r` (R176). -/
def decryptRound (rk : Words 60) (v : Words 4) (r : Nat) : Words 4 :=
  invSubBytes (invShiftRows (invMixColumns (addRoundKey v rk r)))

/-- `encryptBlock` with the schedule `rk` of `n` rounds (R170). -/
def encryptBlock (b : Bytes) (rk : Words 60) (n : Nat) : Bytes :=
  let v := (List.range' 1 (n - 1)).foldl (encryptRound rk) (addRoundKey (loadState b) rk 0)
  storeState (addRoundKey (shiftRows (subBytes v)) rk n)

/-- `decryptBlock` with the schedule `rk` of `n` rounds (R176). -/
def decryptBlock (b : Bytes) (rk : Words 60) (n : Nat) : Bytes :=
  let v := invSubBytes (invShiftRows (addRoundKey (loadState b) rk n))
  storeState (addRoundKey ((List.range' 1 (n - 1)).reverse.foldl (decryptRound rk) v) rk 0)

/-! ### The step commands -/

/-- LDS (R151). -/
def execLds (st : State) : Result :=
  require st.dataFits .illegalCommand st fun _ =>
    require (st.dlen = 16#32) .invalidBlockSize st fun _ =>
      complete (st.loadS (loadState st.blockOperand))

/-- STS (R152). -/
def execSts (st : State) : Result :=
  require (st.sv = true) .illegalCommand st fun _ => complete (st.out (storeState st.s))

/-- ARK r (R155). -/
def execArk (r : BitVec 4) (st : State) : Result :=
  require (st.rkv = true ∧ st.sv = true) .illegalCommand st fun _ =>
    require (r ≤ st.nr) .illegalCommand st fun _ =>
      complete (st.setS (addRoundKey st.s st.rk r.toNat))

/-- A step command on S: it needs SV and replaces S by its image (R150). -/
def stepOnS (f : Words 4 → Words 4) (st : State) : Result :=
  require (st.sv = true) .illegalCommand st fun _ => complete (st.setS (f st.s))

/-- SUBB (R157). -/
def execSubb (st : State) : Result := stepOnS subBytes st

/-- ISUBB (R159). -/
def execIsubb (st : State) : Result := stepOnS invSubBytes st

/-- SHROW (R161). -/
def execShrow (st : State) : Result := stepOnS shiftRows st

/-- ISHROW (R163). -/
def execIshrow (st : State) : Result := stepOnS invShiftRows st

/-- MIXC (R165). -/
def execMixc (st : State) : Result := stepOnS mixColumns st

/-- IMIXC (R167). -/
def execImixc (st : State) : Result := stepOnS invMixColumns st

/-! ### The block commands -/

/-- A block command: it needs a schedule and 16 bytes of data and outputs their image; S is not touched (R150). -/
def blockCommand (f : Bytes → Words 60 → Nat → Bytes) (st : State) : Result :=
  require (st.rkv = true) .illegalCommand st fun _ =>
    require st.dataFits .illegalCommand st fun _ =>
      require (st.dlen = 16#32) .invalidBlockSize st fun _ =>
        complete (st.out (f st.blockOperand st.rk st.nr.toNat))

/-- ENCB (R172). -/
def execEncb (st : State) : Result := blockCommand encryptBlock st

/-- DECB (R175). -/
def execDecb (st : State) : Result := blockCommand decryptBlock st

end Sys2Proof.Machine
end

