-- ==== Sys2Proof/Machine/Padding.lean ====
section
/-! DEFINITION. The padding codec: `pad` and `unpad` (44_padding.md rules R210 to R213) and the commands PAD and UNPAD
(R214, R215). -/
namespace Sys2Proof.Machine

/-- `pad(data, bs)`: n bytes of value n, 1 <= n <= bs (R210). -/
def padBytes (data : Bytes) (bs : Nat) : Bytes :=
  let n := bs - data.length % bs
  data ++ List.replicate n (BitVec.ofNat 8 n)

/-- `unpad(data, bs)` (R211). -/
def unpadBytes (data : Bytes) (bs : Nat) : Except ErrorKind Bytes :=
  if data.length = 0 then .error .invalidPadding
  else
    let last := byteAt data (data.length - 1)
    let p := last.toNat
    if p < 1 ∨ bs < p then .error .invalidPadding
    else if data.length < p then .error .invalidPadding
    else if (data.drop (data.length - p)).any (fun b => b ≠ last) then .error .invalidPadding
    else .ok (data.take (data.length - p))

/-- PAD (R214). -/
def execPad (st : State) : Result :=
  require st.dataFits .illegalCommand st fun _ =>
    require st.paddedFits .illegalCommand st fun _ =>
      complete (st.out (padBytes st.dataOperand 16))

/-- UNPAD (R215). -/
def execUnpad (st : State) : Result :=
  require st.dataFits .illegalCommand st fun _ =>
    attempt (unpadBytes st.dataOperand 16) st fun m => complete (st.out m)

end Sys2Proof.Machine
end

