-- ==== Sys2Proof/Machine/Cbc.lean ====
section
/-! DEFINITION. The CBC mode driver: `cbcEncrypt` and `cbcDecrypt` (43_cbc_mode.md rules R190 to R197) and the commands CBCE
and CBCD (R193, R196). The chaining value is an argument of the functions, not state (R192, 10_state.md R49). -/
namespace Sys2Proof.Machine

/-- The ciphertext of the first `k` 16-byte blocks of `p`, from the chaining value on (R194). -/
def cbcEncryptBlocks (rk : Words 60) (n : Nat) : Nat → Bytes → Bytes → Bytes
  | 0, _, _ => []
  | k + 1, chain, p =>
    let c := encryptBlock (xorBytes (p.take 16) chain) rk n
    c ++ cbcEncryptBlocks rk n k c (p.drop 16)

/-- The unstripped plaintext of the first `k` 16-byte blocks of `d`, from the chaining value on (R195). -/
def cbcDecryptBlocks (rk : Words 60) (n : Nat) : Nat → Bytes → Bytes → Bytes
  | 0, _, _ => []
  | k + 1, chain, d =>
    let c := d.take 16
    xorBytes (decryptBlock c rk n) chain ++ cbcDecryptBlocks rk n k c (d.drop 16)

/-- `cbcEncrypt(data, schedule, iv)` (R194). -/
def cbcEncrypt (data : Bytes) (rk : Words 60) (n : Nat) (iv : Bytes) : Bytes :=
  let p := padBytes data 16
  cbcEncryptBlocks rk n (p.length / 16) iv p

/-- `cbcDecrypt(data, schedule, iv)` (R195). -/
def cbcDecrypt (data : Bytes) (rk : Words 60) (n : Nat) (iv : Bytes) : Except ErrorKind Bytes :=
  if data.length = 0 ∨ data.length % 16 ≠ 0 then .error .invalidCiphertextLength
  else unpadBytes (cbcDecryptBlocks rk n (data.length / 16) iv data) 16

/-- CBCE (R193). -/
def execCbce (st : State) : Result :=
  require (st.rkv = true) .illegalCommand st fun _ =>
    require st.dataFits .illegalCommand st fun _ =>
      require st.paddedFits .illegalCommand st fun _ =>
        require (st.ivlen = 16#32) .invalidIVSize st fun _ =>
          complete (st.out (cbcEncrypt st.dataOperand st.rk st.nr.toNat st.ivOperand))

/-- CBCD (R196). -/
def execCbcd (st : State) : Result :=
  require (st.rkv = true) .illegalCommand st fun _ =>
    require st.dataFits .illegalCommand st fun _ =>
      require (st.ivlen = 16#32) .invalidIVSize st fun _ =>
        require (st.dlen ≠ 0#32 ∧ st.dlen.toNat % 16 = 0) .invalidCiphertextLength st fun _ =>
          attempt (cbcDecrypt st.dataOperand st.rk st.nr.toNat st.ivOperand) st fun m => complete (st.out m)

end Sys2Proof.Machine
end

