-- ==== Sys2Proof/Machine/RoundFunction.lean ====
section
/-! DEFINITION. The stream round function: quarter-round, iteration, feed-forward, serialisation and `block`
(46_round_function.md rules R240 to R254) and the commands LDW, QR, DRND, FFWD, SERW and SBLK. -/
namespace Sys2Proof.Machine

/-- `v[i] = v[i] +32 v[j]` (R241). -/
def addInto (v : Words 16) (i j : Fin 16) : Words 16 := v.set i (v[i] + v[j])

/-- `v[i] = rotl32(v[i] ^ v[j], n)` (R241). -/
def xorRotate (v : Words 16) (i j : Fin 16) (n : Nat) : Words 16 := v.set i (rotl32 (v[i] ^^^ v[j]) n)

/-- The quarter-round on the indices a, b, c, d: eight assignments in this order (R241). -/
def quarterRound (v : Words 16) (a b c d : Fin 16) : Words 16 :=
  let v := addInto v a b
  let v := xorRotate v d a 16
  let v := addInto v c d
  let v := xorRotate v b c 12
  let v := addInto v a b
  let v := xorRotate v d a 8
  let v := addInto v c d
  xorRotate v b c 7

/-- One iteration: four column and four diagonal quarter-rounds (R243, R245). -/
def doubleRound (v : Words 16) : Words 16 :=
  let v := quarterRound v 0 4 8 12
  let v := quarterRound v 1 5 9 13
  let v := quarterRound v 2 6 10 14
  let v := quarterRound v 3 7 11 15
  let v := quarterRound v 0 5 10 15
  let v := quarterRound v 1 6 11 12
  let v := quarterRound v 2 7 8 13
  quarterRound v 3 4 9 14

/-- The feed-forward: word-wise addition modulo 2^32 (R248, R251). -/
def addWords (v x : Words 16) : Words 16 := Vector.ofFn fun i => v[i] + x[i]

/-- The 64 bytes of sixteen words, little-endian per word (R250, R251). -/
def serialise (v : Words 16) : Bytes := v.toList.flatMap lebytes

/-- `block(x)`: ten iterations on a copy, feed-forward, serialisation (R251). -/
def streamBlock (x : Words 16) : Bytes := serialise (addWords (doubleRound^[10] x) x)

/-- LDW (R242). -/
def execLdw (st : State) : Result :=
  require (st.xv = true) .illegalCommand st fun _ => complete (st.loadW st.x)

/-- QR a,b,c,d (R244). -/
def execQr (a b c d : BitVec 4) (st : State) : Result :=
  require (st.wv = true) .illegalCommand st fun _ =>
    require (a ≠ b ∧ a ≠ c ∧ a ≠ d ∧ b ≠ c ∧ b ≠ d ∧ c ≠ d) .illegalCommand st fun _ =>
      complete (st.setW (quarterRound st.w (wordIndex a) (wordIndex b) (wordIndex c) (wordIndex d)))

/-- DRND (R246). -/
def execDrnd (st : State) : Result :=
  require (st.wv = true) .illegalCommand st fun _ => complete (st.setW (doubleRound st.w))

/-- FFWD (R248). -/
def execFfwd (st : State) : Result :=
  require (st.wv = true ∧ st.xv = true) .illegalCommand st fun _ => complete (st.setW (addWords st.w st.x))

/-- SERW (R250). -/
def execSerw (st : State) : Result :=
  require (st.wv = true) .illegalCommand st fun _ => complete (st.out (serialise st.w))

/-- SBLK (R252). -/
def execSblk (st : State) : Result :=
  require (st.xv = true) .illegalCommand st fun _ => complete (st.out (streamBlock st.x))

end Sys2Proof.Machine
end

