-- ==== Sys2Proof/Machine/StreamState.lean ====
section
/-! DEFINITION. The stream-cipher state register: the constants, the function `init` and the block counter
(45_stream_state.md rules R225 to R232) and the commands SINIT and SINC (R228, R231). -/
namespace Sys2Proof.Machine

/-- The four stream constants C[0..3] (R225). -/
def streamConstants : Words 4 := #v[0x61707865#32, 0x3320646E#32, 0x79622D32#32, 0x6B206574#32]

/-- The twelve nonce bytes: the nonce, then zero bytes (R227). -/
def paddedNonce (n : Bytes) : Bytes := n ++ List.replicate (12 - n.length) 0#8

/-- The layout [4 constants][8 key words][1 counter][3 nonce words], little-endian per word (R227). -/
def streamLayout (k n : Bytes) (ctr : Word) : Words 16 :=
  #v[streamConstants[0], streamConstants[1], streamConstants[2], streamConstants[3],
     leWord k 0, leWord k 1, leWord k 2, leWord k 3,
     leWord k 4, leWord k 5, leWord k 6, leWord k 7,
     ctr, leWord (paddedNonce n) 0, leWord (paddedNonce n) 1, leWord (paddedNonce n) 2]

/-- `init(key, nonce, counter)` (R226, R227). -/
def streamInit (k n : Bytes) (ctr : Word) : Except ErrorKind (Words 16) :=
  if k.length = 32 then .ok (streamLayout k n ctr) else .error .invalidKeySize

/-- The state with its block counter, word 12, advanced by one modulo 2^32 (R232). -/
def advanceCounter (x : Words 16) : Words 16 := x.set 12 (x[12] + 1#32)

/-- SINIT (R228). -/
def execSinit (st : State) : Result :=
  require (st.nlen.toNat ≤ 12) .illegalCommand st fun _ =>
    require (st.klen = 32#32) .invalidKeySize st fun _ =>
      attempt (streamInit st.keyOperand st.nonceOperand st.ctr0) st fun x => complete (st.loadX x)

/-- SINC (R231). -/
def execSinc (st : State) : Result :=
  require (st.xv = true) .illegalCommand st fun _ => complete (st.setX (advanceCounter st.x))

end Sys2Proof.Machine
end

