-- ==== Sys2Proof/Machine/Combiner.lean ====
section
/-! DEFINITION. The stream combiner: the function `apply` (47_stream_combiner.md rules R265 to R269) and the command SAPPLY
(R266). -/
namespace Sys2Proof.Machine

/-- The first `n` 64-byte chunks of the data: each is XORed with one keystream block, then the counter advances (R265). -/
def applyChunks : Nat → Words 16 → Bytes → Words 16 × Bytes
  | 0, x, _ => (x, [])
  | n + 1, x, data =>
    let out := xorBytes (data.take 64) (streamBlock x)
    let r := applyChunks n (advanceCounter x) (data.drop 64)
    (r.1, out ++ r.2)

/-- `apply(x, data)`, with `ceil(len(data) / 64)` chunks (R265). -/
def streamApply (x : Words 16) (data : Bytes) : Words 16 × Bytes :=
  applyChunks ((data.length + 63) / 64) x data

/-- SAPPLY (R266): writes X[12], DOUT and OLEN. -/
def execSapply (st : State) : Result :=
  require (st.xv = true) .illegalCommand st fun _ =>
    require st.dataFits .illegalCommand st fun _ =>
      let r := streamApply st.x st.dataOperand
      complete ((st.setX (st.x.set 12 r.1[12])).out r.2)

end Sys2Proof.Machine
end

