-- ==== Sys2Proof/Machine/KeySchedule.lean ====
section
/-! DEFINITION. The key schedule: the function `expand` (41_key_schedule.md rules R135 to R140) and the commands KEXP and STRK
(R141, R142). -/
namespace Sys2Proof.Machine

/-- The words of the key itself, packed big-endian (R136). -/
def keyWords (key : Bytes) (nk : Nat) : List Word := (List.range nk).map (beWord key)

/-- Word `i = w.length` of the schedule from the words `w` before it (R138). -/
def nextScheduleWord (nk : Nat) (w : List Word) : Word :=
  let i := w.length
  let prev := w.getD (i - 1) 0#32
  let t :=
    if i % nk = 0 then subWord (rotl32 prev 8) ^^^ rconWord (i / nk)
    else if nk = 8 ∧ i % nk = 4 then subWord prev
    else prev
  w.getD (i - nk) 0#32 ^^^ t

/-- `k` further words of the schedule after the words `w` (R138). -/
def extendSchedule (nk : Nat) : Nat → List Word → List Word
  | 0, w => w
  | k + 1, w => extendSchedule nk k (w ++ [nextScheduleWord nk w])

/-- `expand(key)` (R135, R137): the 4*(NR+1) words of the schedule with NR = Nk + 6. -/
def expand (key : Bytes) : Except ErrorKind (List Word × Nat) :=
  if key.length = 16 ∨ key.length = 24 ∨ key.length = 32 then
    let nk := key.length / 4
    let nr := nk + 6
    .ok (extendSchedule nk (4 * (nr + 1) - nk) (keyWords key nk), nr)
  else .error .invalidKeySize

/-- RK[0..59] of a schedule: its words, and 0 above them (R40, R141). -/
def scheduleFile (w : List Word) : Words 60 := Vector.ofFn fun i => w.getD i 0#32

/-- KEXP (R141). -/
def execKexp (st : State) : Result :=
  require (st.klen = 16#32 ∨ st.klen = 24#32 ∨ st.klen = 32#32) .invalidKeySize st fun _ =>
    attempt (expand st.keyOperand) st fun r =>
      complete (st.loadSchedule (scheduleFile r.1) (BitVec.ofNat 4 r.2))

/-- Round key `r` as bytes, big-endian (R74, R139, R142). -/
def roundKeyBytes (rk : Words 60) (r : Nat) : Bytes :=
  bebytes (roundKeyWord rk r 0) ++ bebytes (roundKeyWord rk r 1) ++ bebytes (roundKeyWord rk r 2)
    ++ bebytes (roundKeyWord rk r 3)

/-- STRK r (R142). -/
def execStrk (r : BitVec 4) (st : State) : Result :=
  require (st.rkv = true) .illegalCommand st fun _ =>
    require (r ≤ st.nr) .illegalCommand st fun _ =>
      complete (st.out (roundKeyBytes st.rk r.toNat))

end Sys2Proof.Machine
end

