-- ==== Sys2Proof/Machine/System.lean ====
section
/-! DEFINITION. The system commands NOP and RST (48_system.md rules R280, R281). -/
namespace Sys2Proof.Machine

/-- NOP (R280): its only effect is `ERR <- 0`. -/
def execNop (st : State) : Result := complete st

/-- RST (R281): the reset of R330; ERR is 0 afterwards. -/
def execRst (st : State) : Result := complete st.resetEngine

end Sys2Proof.Machine
end

