-- ==== Sys2Proof/Machine/Dispatch.lean ====
section
/-! DEFINITION. One arm per command of the opcode map (30_encoding.md rule R96), each one call of its meaning. -/
namespace Sys2Proof.Machine

def exec (i : Instr) (s : State) : Host.Outcome State Fault Refusal :=
  match i with
  | .nop => Sys2Proof.Machine.execNop s
  | .rst => Sys2Proof.Machine.execRst s
  | .kexp => Sys2Proof.Machine.execKexp s
  | .strk r => Sys2Proof.Machine.execStrk r s
  | .lds => Sys2Proof.Machine.execLds s
  | .sts => Sys2Proof.Machine.execSts s
  | .ark r => Sys2Proof.Machine.execArk r s
  | .subb => Sys2Proof.Machine.execSubb s
  | .isubb => Sys2Proof.Machine.execIsubb s
  | .shrow => Sys2Proof.Machine.execShrow s
  | .ishrow => Sys2Proof.Machine.execIshrow s
  | .mixc => Sys2Proof.Machine.execMixc s
  | .imixc => Sys2Proof.Machine.execImixc s
  | .encb => Sys2Proof.Machine.execEncb s
  | .decb => Sys2Proof.Machine.execDecb s
  | .cbce => Sys2Proof.Machine.execCbce s
  | .cbcd => Sys2Proof.Machine.execCbcd s
  | .pad => Sys2Proof.Machine.execPad s
  | .unpad => Sys2Proof.Machine.execUnpad s
  | .sinit => Sys2Proof.Machine.execSinit s
  | .sinc => Sys2Proof.Machine.execSinc s
  | .ldw => Sys2Proof.Machine.execLdw s
  | .qr a b c d => Sys2Proof.Machine.execQr a b c d s
  | .drnd => Sys2Proof.Machine.execDrnd s
  | .ffwd => Sys2Proof.Machine.execFfwd s
  | .serw => Sys2Proof.Machine.execSerw s
  | .sblk => Sys2Proof.Machine.execSblk s
  | .sapply => Sys2Proof.Machine.execSapply s

end Sys2Proof.Machine
end

