-- ==== Sys2Proof/Machine/Command.lean ====
section
/-! DEFINITION. A write of CMD: the command the word encodes runs at once, completely; a word that is no command raises
`IllegalCommand` (10_state.md R22, 30_encoding.md R97, 60_exceptions.md R296). -/
namespace Sys2Proof.Machine

/-- `HostWriteCsr(CMD, w)`. -/
def runWord (w : Word) (st : State) : Result :=
  match decode w with
  | .ok i => exec i st
  | .error _ => raise .illegalCommand st

end Sys2Proof.Machine
end

