-- ==== Sys2Proof/Machine/Flags.lean ====
section
/-! DEFINITION. The flag computations: EF and the STATUS view (10_state.md R23). The four valid flags are state, set by the
`load…` operations of Machine/Ops.lean and cleared by reset alone (R24); there are no arithmetic flags (R254). -/
namespace Sys2Proof.Machine

/-- `EF = 1 if ERR != 0 else 0` (R23). -/
def State.ef (st : State) : Bool := st.err ≠ 0#3

/-- STATUS: [0] RKV, [1] SV, [2] XV, [3] WV, [4] EF, [31:5] zero (R23). -/
def State.statusWord (st : State) : Word :=
  0#27 ++ BitVec.ofBool st.ef ++ BitVec.ofBool st.wv ++ BitVec.ofBool st.xv ++ BitVec.ofBool st.sv ++ BitVec.ofBool st.rkv

end Sys2Proof.Machine
end

