-- ==== Sys2Proof/Machine/HostPort.lean ====
section
/-! DEFINITION. The host port: CSR numbers, buffer sizes and the five host actions (10_state.md R21 to R33, 20_memory.md R60 to
R65, 70_reset_and_hazards.md section 5). -/
namespace Sys2Proof.Machine

/-- The CSR of a number (R21, R99); a number above 0x0A names none. -/
def Csr.ofNumber (n : Nat) : Option Csr :=
  match n with
  | 0x00 => some .cmd
  | 0x01 => some .status
  | 0x02 => some .err
  | 0x03 => some .klen
  | 0x04 => some .ivlen
  | 0x05 => some .nlen
  | 0x06 => some .ctr0
  | 0x07 => some .dlen
  | 0x08 => some .olen
  | 0x09 => some .nr
  | 0x0A => some .cap
  | _ => none

/-- The number of a CSR (R21, R99). -/
def Csr.number : Csr → Nat
  | .cmd => 0x00
  | .status => 0x01
  | .err => 0x02
  | .klen => 0x03
  | .ivlen => 0x04
  | .nlen => 0x05
  | .ctr0 => 0x06
  | .dlen => 0x07
  | .olen => 0x08
  | .nr => 0x09
  | .cap => 0x0A

/-- The id of a buffer (R60, R99). -/
def Buffer.id : Buffer → Nat
  | .key => 0
  | .iv => 1
  | .nonce => 2
  | .din => 3
  | .dout => 4

/-- The value of a CSR (R22 to R33): CMD reads 0, STATUS is a view, CAP is DCAP. -/
def State.csr (st : State) : Csr → Word
  | .cmd => 0#32
  | .status => st.statusWord
  | .err => st.err.setWidth 32
  | .klen => st.klen
  | .ivlen => st.ivlen
  | .nlen => st.nlen
  | .ctr0 => st.ctr0
  | .dlen => st.dlen
  | .olen => st.olen
  | .nr => st.nr.setWidth 32
  | .cap => st.cap

/-- `HostReadCsr(n)`: 0 for a number above 0x0A (R21). -/
def State.readCsr (st : State) (n : Nat) : Word :=
  match Csr.ofNumber n with
  | some c => st.csr c
  | none => 0#32

/-- `HostWriteCsr(n, v)` for a number other than CMD's: the five read/write CSRs store `v` unchanged; a write to a read-only
CSR or to a number above 0x0A is ignored (R21, R26 to R30). -/
def State.writeCsr (st : State) (n : Nat) (v : Word) : State :=
  match Csr.ofNumber n with
  | some .klen => { st with klen := v }
  | some .ivlen => { st with ivlen := v }
  | some .nlen => { st with nlen := v }
  | some .ctr0 => { st with ctr0 := v }
  | some .dlen => { st with dlen := v }
  | some .cmd | some .status | some .err | some .olen | some .nr | some .cap | none => st

/-- The size of a buffer in bytes (R60). -/
def State.bufferSize (st : State) : Buffer → Nat
  | .key => 32
  | .iv => 16
  | .nonce => 12
  | .din => st.cap.toNat
  | .dout => st.cap.toNat

/-- The content of a buffer. -/
def State.buffer (st : State) : Buffer → Memory
  | .key => st.key
  | .iv => st.iv
  | .nonce => st.nonce
  | .din => st.din
  | .dout => st.dout

/-- `HostReadByte(buf, i)`: 0 at or beyond the buffer's size (R61, R63). -/
def State.readByte (st : State) (buf : Buffer) (i : Nat) : Byte :=
  if i < st.bufferSize buf then (st.buffer buf).read i else 0#8

/-- `HostWriteByte(buf, i, v)`: ignored at or beyond the buffer's size and for DOUT (R62, R63). -/
def State.writeByte (st : State) (buf : Buffer) (i : Nat) (v : Byte) : State :=
  if i < st.bufferSize buf then
    match buf with
    | .key => { st with key := st.key.write i v }
    | .iv => { st with iv := st.iv.write i v }
    | .nonce => { st with nonce := st.nonce.write i v }
    | .din => { st with din := st.din.write i v }
    | .dout => st
  else st

/-- One host action on the engine (70_reset_and_hazards.md section 5). A read returns its value through `response` and
changes nothing else (R21, R61); any other action returns nothing. -/
def hostAction (a : HostAction) (st : State) : Result :=
  match a with
  | .readCsr n => .next (st.respond (some (.csr (st.readCsr n))))
  | .readByte buf i => .next (st.respond (some (.byte (st.readByte buf i))))
  | .writeCsr n v =>
    if Csr.ofNumber n = some .cmd then runWord v (st.respond none) else .next ((st.respond none).writeCsr n v)
  | .writeByte buf i v => .next ((st.respond none).writeByte buf i v)
  | .reset => .next (st.respond none).resetEngine

/-- The host's next action, taken from the front of the list; with none the engine waits (R8: it "never takes a step the host
did not cause"). -/
def nextAction (st : State) : Result :=
  match st.pending with
  | [] => .next st
  | a :: rest => hostAction a { st with pending := rest }

/-- The state in which the host's very next action writes the word made of the low `nbits` bits of `w` to CMD. -/
def placeCommand (st : State) (nbits w : Nat) : State :=
  { st with pending := .writeCsr Csr.cmd.number (BitVec.ofNat 32 (w % 2 ^ nbits)) :: st.pending }

end Sys2Proof.Machine
end

