-- ==== Sys2Proof/Machine/Step.lean ====
section
/-! DEFINITION. One step of the machine: one host action, and with it the command it causes, as one atomic step
(20_memory.md R70, R71). The engine fetches nothing (10_state.md R48): a command word is the value the host writes to CMD at
the moment of the write (R73), so the next instruction stands in the host's next action. -/
namespace Sys2Proof.Machine

/-- One host action (R70). -/
def step (s : State) : Host.Outcome State Fault Refusal := nextAction s

/-- `s` with the instruction `w` as the host's very next action, a write of CMD. -/
def State.withFetchWord (s : State) (nbits w : Nat) : State := placeCommand s nbits w

end Sys2Proof.Machine
end

