-- ==== Sys2Proof/Machine/Assembler.lean ====
section
/-! DEFINITION. The assembler syntax and the host programs written in it (30_encoding.md rules R104 to R108,
47_stream_combiner.md R270): what a line is, which host actions it means, whether the values it states are the ones the engine
gives, and how a line of text is read. Nothing in the engine depends on this file. -/
namespace Sys2Proof.Machine

/-- One line of a program: a command, a host action or a pseudo-instruction (R104 to R107). -/
inductive Line where
  /-- A command with the ERR value expected after it; none is the code name OK (R105). -/
  | command (i : Instr) (expected : Option ErrorKind)
  /-- `WR <csr>, <value>` (R106). -/
  | wr (csr : Nat) (v : Word)
  /-- `RD <csr>`, with the value expected if one is stated (R106). The number a line states is kept whole: one that is no
  32-bit value is never the value read. -/
  | rd (csr : Nat) (expected : Option Nat)
  /-- `WRB <buf>, <index>, <byte string>` (R106). -/
  | wrb (buf : Buffer) (index : Nat) (v : Bytes)
  /-- `RDB <buf>, <index>, <count>`, with the bytes expected if they are stated (R106). -/
  | rdb (buf : Buffer) (index count : Nat) (expected : Option Bytes)
  /-- `RESET` (R106). -/
  | reset
  /-- `LOADKEY <bytes>` (R107). -/
  | loadKey (v : Bytes)
  /-- `LOADIV <bytes>` (R107). -/
  | loadIv (v : Bytes)
  /-- `LOADNONCE <bytes>` (R107). -/
  | loadNonce (v : Bytes)
  /-- `LOADDATA <bytes>` (R107). -/
  | loadData (v : Bytes)
  /-- `XFER` (R107). -/
  | xfer
  /-- `EXPECT <byte string>` (R107). -/
  | expect (v : Bytes)
  deriving DecidableEq, Repr

/-! ### What a line means -/

/-- One `HostWriteByte` per byte, to consecutive indices (R106). -/
def writeBytes (buf : Buffer) : Nat → Bytes → List HostAction
  | _, [] => []
  | i, v :: vs => .writeByte buf i v :: writeBytes buf (i + 1) vs

/-- One `HostReadByte` per byte, from consecutive indices (R106). -/
def readBytes (buf : Buffer) (i count : Nat) : List HostAction :=
  (List.range count).map fun k => .readByte buf (i + k)

/-- `WR <csr>, len(<bytes>)` (R107). DESIGN CHOICE (notes/assumptions/11.md): a length that does not fit the 32-bit CSR is written
as the greatest number that does. -/
def writeLength (c : Csr) (v : Bytes) : HostAction := .writeCsr c.number (BitVec.ofNat 32 (min v.length 0xFFFFFFFF))

/-- The result bytes DOUT[0..OLEN) as the host reads them. -/
def State.result (st : State) : Bytes := (List.range st.olen.toNat).map (st.readByte .dout)

/-- The host reads the last result: OLEN, then DOUT[0..OLEN) (R107, R108). -/
def State.resultActions (st : State) : List HostAction :=
  .readCsr Csr.olen.number :: readBytes .dout 0 st.olen.toNat

/-- The host actions of a line; XFER writes what its own reads return, so they depend on the state before the line. -/
def Line.actions (l : Line) (st : State) : List HostAction :=
  match l with
  | .command i _ => [.writeCsr Csr.cmd.number (encode i)]
  | .wr c v => [.writeCsr c v]
  | .rd c _ => [.readCsr c]
  | .wrb buf i v => writeBytes buf i v
  | .rdb buf i n _ => readBytes buf i n
  | .reset => [.reset]
  | .loadKey v => writeBytes .key 0 (v.take 32) ++ [writeLength .klen v]
  | .loadIv v => writeBytes .iv 0 (v.take 16) ++ [writeLength .ivlen v]
  | .loadNonce v => writeBytes .nonce 0 (v.take 12) ++ [writeLength .nlen v]
  | .loadData v => writeBytes .din 0 v ++ [writeLength .dlen v]
  | .xfer =>
    st.resultActions ++ writeBytes .din 0 st.result ++ [.writeCsr Csr.dlen.number st.olen]
  | .expect v => [.readCsr Csr.olen.number] ++ readBytes .dout 0 v.length

/-- The code a command line expects in ERR (R105): 0 for OK. -/
def expectedCode (e : Option ErrorKind) : BitVec 3 :=
  match e with
  | some k => k.code
  | none => 0#3

/-- The values a line states are the ones the engine gives: `st` is the state before the line, `t` the state after it. -/
def Line.agrees (l : Line) (st t : State) : Bool :=
  match l with
  | .command _ e => t.err = expectedCode e
  | .rd c (some v) => (st.readCsr c).toNat = v
  | .rdb buf i n (some v) => (List.range n).map (fun k => st.readByte buf (i + k)) = v
  | .expect v => st.olen.toNat = v.length && (List.range v.length).map (st.readByte .dout) = v
  | .loadData v => v.length ≤ st.cap.toNat
  | .rd _ none | .rdb _ _ _ none | .wr _ _ | .wrb _ _ _ | .reset | .loadKey _ | .loadIv _ | .loadNonce _ | .xfer => true

/-- The host performs actions in order, each on the state the one before it left (R71). -/
def perform : List HostAction → State → Result
  | [], st => .next st
  | a :: rest, st =>
    match hostAction a st with
    | .next t => perform rest t
    | .fault r => .fault r
    | .refused r => .refused r

/-- A program: its lines in order; the answer says as well whether every line agreed with the engine. -/
def runLines : List Line → State → Option (State × Bool)
  | [], st => some (st, true)
  | l :: rest, st =>
    match perform (l.actions st) st with
    | .next t => (runLines rest t).map fun r => (r.1, l.agrees st t && r.2)
    | .fault _ => none
    | .refused _ => none

/-! ### The software entry points (R108, R270) -/

/-- The error kind of a code in ERR (R290); 0 is none. -/
def errorKind (code : BitVec 3) : Option ErrorKind :=
  [.invalidKeySize, .invalidIVSize, .invalidBlockSize, .invalidCiphertextLength, .invalidPadding, .illegalCommand].find?
    fun e => e.code = code

/-- What a line raises in the software call: a command that ends with ERR != 0 its error kind, any other line nothing. -/
def Line.raises (l : Line) (t : State) : Option ErrorKind :=
  match l with
  | .command _ _ => errorKind t.err
  | .wr _ _ | .rd _ _ | .wrb _ _ _ | .rdb _ _ _ _ | .reset | .loadKey _ | .loadIv _ | .loadNonce _ | .loadData _ | .xfer
  | .expect _ => none

/-- What a software call answers: the state the engine is left in, and the bytes returned or the error raised. -/
abbrev CallResult := State × Except ErrorKind Bytes

/-- The lines of a sequence in order, up to the first command that ends with ERR != 0, where the host stops (R108); `rest` is
what the host does after the last line. -/
def callLines (rest : State → Option CallResult) : List Line → State → Option CallResult
  | [], st => rest st
  | l :: ls, st =>
    match perform (l.actions st) st with
    | .next t =>
      match l.raises t with
      | some e => some (t, .error e)
      | none => callLines rest ls t
    | .fault _ => none
    | .refused _ => none

/-- The host reads DOUT[0..OLEN) and puts it after the bytes it has (R108, R270); `rest` is what it does then. -/
def readResult (rest : Bytes → State → Option CallResult) (done : Bytes) (st : State) : Option CallResult :=
  match perform st.resultActions st with
  | .next t => rest (done ++ st.result) t
  | .fault _ => none
  | .refused _ => none

/-- The call is over and returns its bytes. -/
def returnBytes (done : Bytes) (st : State) : Option CallResult := some (st, .ok done)

/-- Block cipher `encrypt(plaintext, key, iv)` (R108). -/
def blockEncryptLines (data key iv : Bytes) : List Line :=
  [.loadKey key, .command .kexp none, .loadIv iv, .loadData data, .command .cbce none]

/-- Block cipher `decrypt(ciphertext, key, iv)` (R108). -/
def blockDecryptLines (data key iv : Bytes) : List Line :=
  [.loadKey key, .command .kexp none, .loadIv iv, .loadData data, .command .cbcd none]

/-- The block cipher's `encrypt` with what it returns or raises (R108). -/
def blockEncrypt (data key iv : Bytes) (st : State) : Option CallResult :=
  callLines (readResult returnBytes []) (blockEncryptLines data key iv) st

/-- The block cipher's `decrypt` with what it returns or raises (R108). -/
def blockDecrypt (data key iv : Bytes) (st : State) : Option CallResult :=
  callLines (readResult returnBytes []) (blockDecryptLines data key iv) st

/-- The lines that set up a stream session; the counter is 0 when the caller gives none (R108, R270). -/
def streamSetupLines (key nonce : Bytes) (ctr : Option Word) : List Line :=
  [.loadKey key, .loadNonce nonce, .wr Csr.ctr0.number (ctr.getD 0#32), .command .sinit none]

/-- The lines of one piece of the data (R270). -/
def streamPieceLines (piece : Bytes) : List Line := [.loadData piece, .command .sapply none]

/-- The pieces of a message in order: write DIN and DLEN, SAPPLY, read DOUT[0..OLEN) (R270). -/
def streamPieces : List Bytes → Bytes → State → Option CallResult
  | [], done, st => returnBytes done st
  | p :: ps, done, st => callLines (readResult (streamPieces ps) done) (streamPieceLines p) st

/-- The data in `n` pieces of `size` bytes and the rest as the last piece. -/
def splitData (size : Nat) : Nat → Bytes → List Bytes
  | 0, data => [data]
  | n + 1, data => data.take size :: splitData size n (data.drop size)

/-- The longest piece that fits DIN and ends at a multiple of 64, where R343 lets a message be split. -/
def State.pieceSize (st : State) : Nat := st.cap.toNat / 64 * 64

/-- The pieces of a message: one where the data fit DIN (R108: one LOADDATA and one SAPPLY), empty data included. DESIGN CHOICE
for longer data (notes/assumptions/13.md): all pieces but the last are of the longest size R343 and R299 allow. -/
def State.piecesOf (st : State) (data : Bytes) : List Bytes :=
  if data.length ≤ st.cap.toNat then [data] else splitData st.pieceSize ((data.length - 1) / st.pieceSize) data

/-- Stream cipher `encrypt(key, nonce, plaintext)` and `decrypt(key, nonce, ciphertext)`: both are this same sequence (R108,
R270), whose only failure is SINIT's. -/
def streamCall (key nonce : Bytes) (ctr : Option Word) (data : Bytes) (st : State) : Option CallResult :=
  callLines (streamPieces (st.piecesOf data) []) (streamSetupLines key nonce ctr) st

/-! ### Reading a line of text (R104 to R107) -/

/-- The value of a hexadecimal digit. -/
def hexDigit (c : Char) : Option Nat :=
  if '0' ≤ c ∧ c ≤ '9' then some (c.toNat - 48)
  else if 'a' ≤ c ∧ c ≤ 'f' then some (c.toNat - 87)
  else if 'A' ≤ c ∧ c ≤ 'F' then some (c.toNat - 55)
  else none

/-- Digits in a base, most significant first, onto the value read so far. -/
def readDigits (base : Nat) : Nat → List Char → Option Nat
  | acc, [] => some acc
  | acc, c :: cs =>
    match hexDigit c with
    | some d => if d < base then readDigits base (acc * base + d) cs else none
    | none => none

/-- A number: decimal, or hexadecimal with `0x` (R104). -/
def readNumber : List Char → Option Nat
  | [] => none
  | '0' :: 'x' :: c :: cs => readDigits 16 0 (c :: cs)
  | c :: cs => readDigits 10 0 (c :: cs)

/-- An even number of hex digits, first byte first. -/
def readHexPairs : List Char → Option Bytes
  | [] => some []
  | a :: b :: cs =>
    match hexDigit a, hexDigit b, readHexPairs cs with
    | some h, some l, some r => some (BitVec.ofNat 8 (16 * h + l) :: r)
    | _, _, _ => none
  | [_] => none

/-- A byte string; the empty one is written `-` (R104). -/
def readByteString (cs : List Char) : Option Bytes :=
  match cs with
  | [] => none
  | ['-'] => some []
  | c :: r => readHexPairs (c :: r)

/-- The words and commas of a line; `#` starts a comment (R104). The first argument is the word being read. -/
def lineTokens : List Char → List Char → List (List Char)
  | cur, [] => if cur = [] then [] else [cur]
  | cur, c :: cs =>
    let done := if cur = [] then [] else [cur]
    if c = '#' then done
    else if c = ' ' then done ++ lineTokens [] cs
    else if c = ',' then done ++ [','] :: lineTokens [] cs
    else lineTokens (cur ++ [c]) cs

/-- The mnemonics of R96 with their formats. -/
def mnemonics : List (String × Format) :=
  [("NOP", .n .nop), ("RST", .n .rst), ("KEXP", .n .kexp), ("STRK", .r .strk), ("LDS", .n .lds), ("STS", .n .sts),
    ("ARK", .r .ark), ("SUBB", .n .subb), ("ISUBB", .n .isubb), ("SHROW", .n .shrow), ("ISHROW", .n .ishrow)]
  ++ [("MIXC", .n .mixc), ("IMIXC", .n .imixc), ("ENCB", .n .encb), ("DECB", .n .decb), ("CBCE", .n .cbce),
    ("CBCD", .n .cbcd), ("PAD", .n .pad), ("UNPAD", .n .unpad), ("SINIT", .n .sinit), ("SINC", .n .sinc)]
  ++ [("LDW", .n .ldw), ("QR", .q .qr), ("DRND", .n .drnd), ("FFWD", .n .ffwd), ("SERW", .n .serw), ("SBLK", .n .sblk),
    ("SAPPLY", .n .sapply)]

/-- The CSR names (R99). -/
def csrNames : List (String × Csr) :=
  [("CMD", .cmd), ("STATUS", .status), ("ERR", .err), ("KLEN", .klen), ("IVLEN", .ivlen), ("NLEN", .nlen), ("CTR0", .ctr0),
    ("DLEN", .dlen), ("OLEN", .olen), ("NR", .nr), ("CAP", .cap)]

/-- The buffer names (R99). -/
def bufferNames : List (String × Buffer) :=
  [("KEY", .key), ("IV", .iv), ("NONCE", .nonce), ("DIN", .din), ("DOUT", .dout)]

/-- The code names (R290). -/
def codeNames : List (String × Option ErrorKind) :=
  [("OK", none), ("InvalidKeySize", some .invalidKeySize), ("InvalidIVSize", some .invalidIVSize),
    ("InvalidBlockSize", some .invalidBlockSize), ("InvalidCiphertextLength", some .invalidCiphertextLength),
    ("InvalidPadding", some .invalidPadding), ("IllegalCommand", some .illegalCommand)]

/-- The entry of a name in a table. -/
def lookupName {α : Type} (table : List (String × α)) (name : List Char) : Option α :=
  match table with
  | [] => none
  | (n, a) :: rest => if n.toList = name then some a else lookupName rest name

/-- A CSR by its name or by its number. -/
def readCsrName (cs : List Char) : Option Nat :=
  match lookupName csrNames cs with
  | some c => some c.number
  | none => readNumber cs

/-- A decimal argument of a command: one 4-bit field (R95, R105). -/
def readField (cs : List Char) : Option (BitVec 4) :=
  match readDigits 10 0 cs with
  | some n => if cs ≠ [] ∧ n < 16 then some (BitVec.ofNat 4 n) else none
  | none => none

/-- The command of a mnemonic and its arguments (R105). -/
def readCommand (f : Format) (args : List (List Char)) : Option Instr :=
  match f, args with
  | .n i, [] => some i
  | .r f, [r] => (readField r).map f
  | .q f, [a, [','], b, [','], c, [','], d] =>
    match readField a, readField b, readField c, readField d with
    | some a, some b, some c, some d => some (f a b c d)
    | _, _, _, _ => none
  | _, _ => none

/-- The part of a line before `->` and, if there is one, the word after it. -/
def splitExpectation (ts : List (List Char)) : Option (List (List Char) × Option (List Char)) :=
  let head := ts.takeWhile (· ≠ ['-', '>'])
  match ts.drop head.length with
  | [] => some (head, none)
  | [_, v] => some (head, some v)
  | _ => none

/-- An expected value, where the line states one. -/
def readExpected {α : Type} (read : List Char → Option α) (e : Option (List Char)) : Option (Option α) :=
  match e with
  | none => some none
  | some cs => (read cs).map some

/-- A line with its words before `->` and the expectation after it. DESIGN CHOICE (notes/assumptions/11.md): a WR line whose
number does not fit the 32-bit CSR is no line of the syntax; R106 is silent on it. -/
def readLineParts (ts : List (List Char)) (e : Option (List Char)) : Option Line :=
  match ts with
  | [] => none
  | name :: args =>
    match lookupName mnemonics name with
    | some f =>
      match readCommand f args, readExpected (lookupName codeNames) e with
      | some i, some c => some (.command i (c.getD none))
      | _, _ => none
    | none =>
      match String.ofList name, args, e with
      | "WR", [c, [','], v], none =>
        match readCsrName c, readNumber v with
        | some c, some v => if v < 2 ^ 32 then some (.wr c (BitVec.ofNat 32 v)) else none
        | _, _ => none
      | "RD", [c], e =>
        match readCsrName c, readExpected readNumber e with
        | some c, some v => some (.rd c v)
        | _, _ => none
      | "WRB", [b, [','], i, [','], v], none =>
        match lookupName bufferNames b, readNumber i, readByteString v with
        | some b, some i, some v => some (.wrb b i v)
        | _, _, _ => none
      | "RDB", [b, [','], i, [','], n], e =>
        match lookupName bufferNames b, readNumber i, readNumber n, readExpected readByteString e with
        | some b, some i, some n, some v => some (.rdb b i n v)
        | _, _, _, _ => none
      | "RESET", [], none => some .reset
      | "LOADKEY", [v], none => (readByteString v).map .loadKey
      | "LOADIV", [v], none => (readByteString v).map .loadIv
      | "LOADNONCE", [v], none => (readByteString v).map .loadNonce
      | "LOADDATA", [v], none => (readByteString v).map .loadData
      | "XFER", [], none => some .xfer
      | "EXPECT", [v], none => (readByteString v).map .expect
      | _, _, _ => none

/-- A line of text: blank (no line), a line, or not a line of the syntax (R104). -/
def readLine (cs : List Char) : Option (Option Line) :=
  match lineTokens [] cs with
  | [] => some none
  | ts =>
    match splitExpectation ts with
    | some (head, e) => (readLineParts head e).map some
    | none => none

end Sys2Proof.Machine
end

