-- ==== Sys2Proof/Safety.lean ====
section
/-! DEFINITION. The terms the statements are written in: the invariant of the engine's state (10_state.md R50), command
sequences, which commands belong to which unit, produce output and report which error, and the opcode table's masks. -/
namespace Sys2Proof.Machine

/-! ### The invariant -/

/-- What holds in every reachable state: R50 (a) to (g), the bound on DCAP (R6) and the canonical form and size of the byte
buffers (R60). -/
structure State.Inv (st : State) : Prop where
  /-- R6: 64 <= DCAP. -/
  dcapMin : Config.dcapMin ≤ st.cap
  /-- R50 (a). -/
  olenFits : st.olen.toNat ≤ st.cap.toNat
  /-- R50 (b). -/
  doutZero : ∀ i, st.olen.toNat ≤ i → st.dout.read i = 0#8
  /-- R50 (c), no schedule. -/
  nrNone : st.rkv = false → st.nr = 0#4
  /-- R50 (c), a schedule. -/
  nrSome : st.rkv = true → st.nr = 10#4 ∨ st.nr = 12#4 ∨ st.nr = 14#4
  /-- R50 (d). -/
  rkAbove : ∀ i, 4 * st.nr.toNat + 3 < i → st.rk.getD i 0#32 = 0#32
  /-- R50 (e). -/
  errCode : st.err ≤ 6#3
  /-- R50 (f), with the words of R225. -/
  xConstants : st.xv = true →
    st.x[0] = 0x61707865#32 ∧ st.x[1] = 0x3320646E#32 ∧ st.x[2] = 0x79622D32#32 ∧ st.x[3] = 0x6B206574#32
  /-- R50 (g), RK. -/
  rkEmpty : st.rkv = false → st.rk = Vector.replicate 60 0#32
  /-- R50 (g), S. -/
  sEmpty : st.sv = false → st.s = Vector.replicate 4 0#32
  /-- R50 (g), X. -/
  xEmpty : st.xv = false → st.x = Vector.replicate 16 0#32
  /-- R50 (g), W. -/
  wEmpty : st.wv = false → st.w = Vector.replicate 16 0#32
  /-- KEY is canonical and has 32 bytes. -/
  keyForm : st.key.wf ∧ st.key.below 32
  /-- IV is canonical and has 16 bytes. -/
  ivForm : st.iv.wf ∧ st.iv.below 16
  /-- NONCE is canonical and has 12 bytes. -/
  nonceForm : st.nonce.wf ∧ st.nonce.below 12
  /-- DIN is canonical and has DCAP bytes. -/
  dinForm : st.din.wf ∧ st.din.below st.cap.toNat
  /-- DOUT is canonical and has DCAP bytes. -/
  doutForm : st.dout.wf ∧ st.dout.below st.cap.toNat

/-! ### Buffers and sequences -/

/-- The buffer holds `f 0, …, f (n-1)` and zero bytes after them, in canonical form: what `Out` leaves in DOUT (R67). -/
def Memory.holds (m : Memory) (n : Nat) (f : Nat → Byte) : Prop :=
  m.wf ∧ ∀ i, m.read i = if i < n then f i else 0#8

/-- Bytes `b[16i .. 16i+16)` of a sequence. -/
def blockOf (b : Bytes) (i : Nat) : Bytes := (b.drop (16 * i)).take 16

/-- The commands of a list, each on the state the one before it left (R71). -/
def execSeq : List Instr → State → Result
  | [], st => .next st
  | i :: rest, st =>
    match exec i st with
    | .next t => execSeq rest t
    | .fault r => .fault r
    | .refused r => .refused r

/-- The step commands of `encryptBlock` for `n` rounds (R170), from the load of the block to its store (R150). -/
def encryptSteps (n : Nat) : List Instr :=
  [.lds, .ark 0#4]
    ++ (List.range' 1 (n - 1)).flatMap (fun r => [.subb, .shrow, .mixc, .ark (BitVec.ofNat 4 r)])
    ++ [.subb, .shrow, .ark (BitVec.ofNat 4 n), .sts]

/-- The eight QR commands of one iteration (R253). -/
def iterationSteps : List Instr :=
  [.qr 0 4 8 12, .qr 1 5 9 13, .qr 2 6 10 14, .qr 3 7 11 15, .qr 0 5 10 15, .qr 1 6 11 12, .qr 2 7 8 13, .qr 3 4 9 14]

/-- The step commands of `block` (R253). -/
def blockSteps : List Instr := [.ldw] ++ List.replicate 10 .drnd ++ [.ffwd, .serw]

/-! ### The opcode table -/

/-- The rows of spec/opcode_table.json: match, mask. -/
def opcodeRows : List (Word × Word) :=
  [(0x00000000, 0xFFFFFFFF), (0x00000001, 0xFFFFFFFF), (0x00000010, 0xFFFFFFFF), (0x00000011, 0xFFFFF0FF),
    (0x00000012, 0xFFFFFFFF), (0x00000013, 0xFFFFFFFF), (0x00000014, 0xFFFFF0FF), (0x00000015, 0xFFFFFFFF),
    (0x00000016, 0xFFFFFFFF), (0x00000017, 0xFFFFFFFF)]
  ++ [(0x00000018, 0xFFFFFFFF), (0x00000019, 0xFFFFFFFF), (0x0000001A, 0xFFFFFFFF), (0x0000001B, 0xFFFFFFFF),
    (0x0000001C, 0xFFFFFFFF), (0x00000020, 0xFFFFFFFF), (0x00000021, 0xFFFFFFFF), (0x00000028, 0xFFFFFFFF),
    (0x00000029, 0xFFFFFFFF)]
  ++ [(0x00000030, 0xFFFFFFFF), (0x00000031, 0xFFFFFFFF), (0x00000038, 0xFFFFFFFF), (0x00000039, 0xFF0000FF),
    (0x0000003A, 0xFFFFFFFF), (0x0000003B, 0xFFFFFFFF), (0x0000003C, 0xFFFFFFFF), (0x0000003D, 0xFFFFFFFF),
    (0x00000040, 0xFFFFFFFF)]

/-- The reserved opcode values (R98). -/
def opcodeReserved (opc : Byte) : Prop :=
  (0x02#8 ≤ opc ∧ opc ≤ 0x0F#8) ∨ (0x1D#8 ≤ opc ∧ opc ≤ 0x1F#8) ∨ (0x22#8 ≤ opc ∧ opc ≤ 0x27#8)
    ∨ (0x2A#8 ≤ opc ∧ opc ≤ 0x2F#8) ∨ (0x32#8 ≤ opc ∧ opc ≤ 0x37#8) ∨ opc = 0x3E#8 ∨ opc = 0x3F#8
    ∨ (0x41#8 ≤ opc ∧ opc ≤ 0xFF#8)

end Sys2Proof.Machine

namespace Sys2Proof

/-! ### Classes of commands -/

/-- The commands that use a register file of the block unit, or the padding codec that belongs to it (R316). -/
def Instr.isBlockUnit : Instr → Bool
  | .kexp | .strk _ | .lds | .sts | .ark _ | .subb | .isubb | .shrow | .ishrow | .mixc | .imixc | .encb | .decb | .cbce | .cbcd
  | .pad | .unpad => true
  | .nop | .rst | .sinit | .sinc | .ldw | .qr _ _ _ _ | .drnd | .ffwd | .serw | .sblk | .sapply => false

/-- The commands that use a register file of the stream unit (R316). -/
def Instr.isStreamUnit : Instr → Bool
  | .sinit | .sinc | .ldw | .qr _ _ _ _ | .drnd | .ffwd | .serw | .sblk | .sapply => true
  | .nop | .rst | .kexp | .strk _ | .lds | .sts | .ark _ | .subb | .isubb | .shrow | .ishrow | .mixc | .imixc | .encb | .decb
  | .cbce | .cbcd | .pad | .unpad => false

/-- The commands that produce no output (R68's list). -/
def Instr.producesNoOutput : Instr → Bool
  | .nop | .kexp | .lds | .ark _ | .subb | .isubb | .shrow | .ishrow | .mixc | .imixc | .sinit | .sinc | .ldw | .qr _ _ _ _
  | .drnd | .ffwd => true
  | .rst | .strk _ | .sts | .encb | .decb | .cbce | .cbcd | .pad | .unpad | .serw | .sblk | .sapply => false

/-- Which error a command can report: the table of R308. -/
def Instr.canReport : Instr → List Machine.ErrorKind
  | .nop | .rst => []
  | .kexp => [.invalidKeySize]
  | .strk _ | .sts | .subb | .isubb | .shrow | .ishrow | .mixc | .imixc | .ark _ => [.illegalCommand]
  | .lds | .encb | .decb => [.invalidBlockSize, .illegalCommand]
  | .cbce => [.invalidIVSize, .illegalCommand]
  | .cbcd => [.invalidIVSize, .invalidCiphertextLength, .invalidPadding, .illegalCommand]
  | .pad => [.illegalCommand]
  | .unpad => [.invalidPadding, .illegalCommand]
  | .sinit => [.invalidKeySize, .illegalCommand]
  | .sinc | .ldw | .sblk | .qr _ _ _ _ | .drnd | .serw | .ffwd | .sapply => [.illegalCommand]

/-- Does the command read RK, S, X or W so that it needs that file's valid flag (R298)? In the order RKV, SV, XV, WV. -/
def Instr.needs : Instr → Bool × Bool × Bool × Bool
  | .strk _ | .encb | .decb | .cbce | .cbcd => (true, false, false, false)
  | .sts | .subb | .isubb | .shrow | .ishrow | .mixc | .imixc => (false, true, false, false)
  | .ark _ => (true, true, false, false)
  | .sinc | .ldw | .sblk | .sapply => (false, false, true, false)
  | .qr _ _ _ _ | .drnd | .serw => (false, false, false, true)
  | .ffwd => (false, false, true, true)
  | .nop | .rst | .kexp | .lds | .pad | .unpad | .sinit => (false, false, false, false)

end Sys2Proof
end

