-- ==== Sys2Proof/Certificates/Slice0/Obligations.lean ====
section
/-! DEFINITION. The statements for the provers. Each docstring names the rules of spec/ it formalises. `exec i st = .next t` says
that the command completes; `{ st with … }` on the right side is the instruction's frame: every field not named is unchanged,
all of memory among them. -/
open Sys2Proof Sys2Proof.Machine

/-! ## Encoding -/

/-- R95, R96, R97: a word decodes to a command exactly when it is that command's word: every command decodes from its own word,
with every operand, and no two words are one command. -/
def Obligations.DecodeAndEncodeAgree : Prop :=
  ∀ (w : Word) (i : Instr), decode w = .ok i ↔ encode i = w

/-- R96, R97 and spec/opcode_table.json: the words that decode are the words that match a row of the table. -/
def Obligations.DecoderAcceptsTheRowsOfTheOpcodeTable : Prop :=
  ∀ w : Word, (∃ i, decode w = .ok i) ↔ ∃ row ∈ opcodeRows, w &&& row.2 = row.1

/-- R97, R296: a word that is no command's word executes as `raise IllegalCommand`: ERR <- 6 and nothing else changes. -/
def Obligations.WordOfNoCommandRaisesIllegalCommand : Prop :=
  ∀ (w : Word) (st : State), (∀ i, encode i ≠ w) → runWord w st = .next { st with err := 6#3 }

/-- R98: every reserved encoding is an illegal command: a reserved opcode, and a nonzero bit where the format requires zero. -/
def Obligations.ReservedEncodingsAreIllegal : Prop :=
  ∀ (w : Word) (st : State),
    (opcodeReserved (w.extractLsb' 0 8) → runWord w st = .next { st with err := 6#3 })
    ∧ (w.extractLsb' 24 8 ≠ 0#8 → runWord w st = .next { st with err := 6#3 })
    ∧ (w.extractLsb' 8 16 ≠ 0#16 → w.extractLsb' 0 8 ≠ 0x11#8 → w.extractLsb' 0 8 ≠ 0x14#8 → w.extractLsb' 0 8 ≠ 0x39#8 →
        runWord w st = .next { st with err := 6#3 })
    ∧ (w.extractLsb' 12 12 ≠ 0#12 → (w.extractLsb' 0 8 = 0x11#8 ∨ w.extractLsb' 0 8 = 0x14#8) →
        runWord w st = .next { st with err := 6#3 })

/-- Words written out from R96 and R105 (STRK 10, ARK 14, QR 2,7,8,13, CBCE, SAPPLY) decode to their commands. -/
def Obligations.WrittenOutWordsDecode : Prop :=
  decode 0x00000a11#32 = .ok (.strk 10) ∧ decode 0x00000e14#32 = .ok (.ark 14) ∧ decode 0x00d87239#32 = .ok (.qr 2 7 8 13)
    ∧ decode 0x00000020#32 = .ok .cbce ∧ decode 0x00000040#32 = .ok .sapply

/-! ## The step -/

/-- R22, R70, R73, R97: a host write of CMD runs the decoded command, completely, or, where the word decodes to none, leaves the
code 6 in ERR and changes nothing else; the step around it takes the action off the host's list and returns nothing to the
host. -/
def Obligations.StepRunsTheDecodedCommand : Prop :=
  ∀ (st : State) (w : Word) (rest : List HostAction), st.pending = .writeCsr 0x00 w :: rest →
    let s := { st with pending := rest, response := none }
    (∀ i : Instr, decode w = .ok i → step st = exec i s)
    ∧ ((∀ i : Instr, decode w ≠ .ok i) → step st = .next { s with err := 6#3 })

/-- R8, R306: without a host action a step changes nothing; with one, whatever it is and in every state, it is accepted. -/
def Obligations.EveryHostActionIsAccepted : Prop :=
  ∀ st : State, (st.pending = [] → step st = .next st) ∧ ∃ t, step st = .next t ∧ t.pending = st.pending.tail

/-- The invariant is the spec's own inference (10_state.md section 7, R50: "derived ... by induction over commands") with the
bound of R6 and the canonical form and size of the buffers (notes/assumptions/10.md); the constants in it are the ones the
spec supplies from general knowledge (notes/assumptions/6.md). The reset state of every DCAP the spec allows meets it, and so
does `State.reset`, whose DCAP 4096 is the model's choice (notes/assumptions/1.md). -/
def Obligations.ResetMeetsTheInvariant : Prop :=
  (∀ c : Word, Config.dcapMin ≤ c → (State.resetWith c).Inv) ∧ State.reset.Inv

/-- The invariant is the spec's own inference (10_state.md section 7, R50: "derived ... by induction over commands") with the
bound of R6 and the canonical form and size of the buffers (notes/assumptions/10.md); the constants in it are the ones the
spec supplies from general knowledge (notes/assumptions/6.md). Every step, whatever the host does, keeps it. -/
def Obligations.StepKeepsTheInvariant : Prop :=
  ∀ st t : State, st.Inv → step st = .next t → t.Inv

/-- R331: the reset values, and the codes of the 28 commands issued directly after reset. -/
def Obligations.ResetLeavesTheListedValues : Prop :=
  ∀ c : Word, Config.dcapMin ≤ c →
    let st := State.resetWith c
    (∀ n, st.readCsr n = if n = 0x0A then c else 0#32)
    ∧ (∀ b i, st.readByte b i = 0#8)
    ∧ (∀ i, (h : i < 60) → st.rk[i] = 0#32) ∧ (∀ i, (h : i < 4) → st.s[i] = 0#32)
    ∧ (∀ i, (h : i < 16) → st.x[i] = 0#32) ∧ (∀ i, (h : i < 16) → st.w[i] = 0#32)
    ∧ (∀ i, i = .nop ∨ i = .rst → exec i st = .next st)
    ∧ (∃ d, exec .pad st = .next { st with dout := d, olen := 16#32 } ∧ d.holds 16 fun _ => 0x10#8)
    ∧ (∀ i, i = .kexp ∨ i = .sinit → exec i st = .next { st with err := 1#3 })
    ∧ exec .lds st = .next { st with err := 3#3 }
    ∧ exec .unpad st = .next { st with err := 5#3 }
    ∧ (∀ i, i ≠ .nop → i ≠ .rst → i ≠ .pad → i ≠ .kexp → i ≠ .sinit → i ≠ .lds → i ≠ .unpad →
        exec i st = .next { st with err := 6#3 })

/-! ## The host port -/

/-- R21 with the values of R22 to R33: a read of a CSR returns its value, 0 for CMD and above 0x0A, and changes nothing. -/
def Obligations.CsrReadReturnsTheValue : Prop :=
  ∀ (st : State) (n : Nat) (rest : List HostAction), st.pending = .readCsr n :: rest →
    ∃ v : Word, step st = .next { st with pending := rest, response := some (.csr v) }
      ∧ (n = 0x00 → v = 0#32) ∧ (n = 0x01 → v = st.statusWord) ∧ (n = 0x02 → v = st.err.setWidth 32)
      ∧ (n = 0x03 → v = st.klen) ∧ (n = 0x04 → v = st.ivlen) ∧ (n = 0x05 → v = st.nlen) ∧ (n = 0x06 → v = st.ctr0)
      ∧ (n = 0x07 → v = st.dlen) ∧ (n = 0x08 → v = st.olen) ∧ (n = 0x09 → v = st.nr.setWidth 32) ∧ (n = 0x0A → v = st.cap)
      ∧ (0x0A < n → v = 0#32)

/-- R21, R26 to R30: a write of KLEN, IVLEN, NLEN, CTR0 or DLEN stores the value unchanged; a write of a read-only CSR or above
0x0A is ignored. -/
def Obligations.CsrWriteStoresOrIsIgnored : Prop :=
  ∀ (st : State) (n : Nat) (v : Word) (rest : List HostAction), st.pending = .writeCsr n v :: rest →
    let s := { st with pending := rest, response := none }
    (n = 0x03 → step st = .next { s with klen := v }) ∧ (n = 0x04 → step st = .next { s with ivlen := v })
    ∧ (n = 0x05 → step st = .next { s with nlen := v }) ∧ (n = 0x06 → step st = .next { s with ctr0 := v })
    ∧ (n = 0x07 → step st = .next { s with dlen := v })
    ∧ (n = 0x01 ∨ n = 0x02 ∨ 0x08 ≤ n → step st = .next s)

/-- R61: a read of a buffer byte returns it and changes nothing. That a read at or beyond the buffer's size returns 0 is R63's
effect, which a model may refuse instead; taking it is the model's choice (notes/assumptions/5.md). -/
def Obligations.BufferReadReturnsTheByte : Prop :=
  ∀ (st : State) (i : Nat) (rest : List HostAction) (b : Buffer), st.pending = .readByte b i :: rest →
    ∃ v : Byte, step st = .next { st with pending := rest, response := some (.byte v) }
      ∧ (b = .key → v = if i < 32 then st.key.read i else 0#8)
      ∧ (b = .iv → v = if i < 16 then st.iv.read i else 0#8)
      ∧ (b = .nonce → v = if i < 12 then st.nonce.read i else 0#8)
      ∧ (b = .din → v = if i < st.cap.toNat then st.din.read i else 0#8)
      ∧ (b = .dout → v = if i < st.cap.toNat then st.dout.read i else 0#8)

/-- R62: a write of a buffer byte sets it and changes no other byte and nothing else. That a write to DOUT or at or beyond the
buffer's size is ignored is R63's effect, which a model may refuse instead; taking it is the model's choice
(notes/assumptions/5.md). -/
def Obligations.BufferWriteSetsOneByte : Prop :=
  ∀ (st : State) (i : Nat) (v : Byte) (rest : List HostAction) (b : Buffer), st.Inv → st.pending = .writeByte b i v :: rest →
    let s := { st with pending := rest, response := none }
    ∃ m : Memory, m.wf ∧ (∀ a, m.read a = if a = i then v else (st.buffer b).read a)
      ∧ (b = .key → step st = .next (if i < 32 then { s with key := m } else s))
      ∧ (b = .iv → step st = .next (if i < 16 then { s with iv := m } else s))
      ∧ (b = .nonce → step st = .next (if i < 12 then { s with nonce := m } else s))
      ∧ (b = .din → step st = .next (if i < st.cap.toNat then { s with din := m } else s))
      ∧ (b = .dout → step st = .next s)

/-- R23: the bits of STATUS. -/
def Obligations.StatusIsAViewOfFlagsAndErr : Prop :=
  ∀ (st : State) (k : Nat), (st.readCsr 0x01).getLsbD k =
    if k = 0 then st.rkv else if k = 1 then st.sv else if k = 2 then st.xv else if k = 3 then st.wv
    else if k = 4 then st.err ≠ 0#3 else false

/-! ## System commands -/

/-- R280, R281, R330: NOP's only effect is `ERR <- 0`; RST, and HostReset in the same way, take every piece of the engine's
state to its reset value, and CAP keeps the value DCAP. -/
def Obligations.NopClearsErrAndRstResets : Prop :=
  encode .nop = 0x00000000#32 ∧ encode .rst = 0x00000001#32 ∧ ∀ st : State,
    exec .nop st = .next { st with err := 0#3 }
    ∧ exec .rst st = .next { State.resetWith st.cap with pending := st.pending, response := st.response }
    ∧ ∀ rest, st.pending = .reset :: rest →
        step st = .next { State.resetWith st.cap with pending := rest, response := none }

/-! ## Tables and field arithmetic -/

/-- R122, R124, R126 (values the spec supplies "from general knowledge, not in source", notes/assumptions/6.md): SBOX is the
field inverse followed by the affine map, ISBOX is its inverse permutation, and each RCON is the double of the one before it. -/
def Obligations.TablesMeetTheirDefinitions : Prop :=
  (∀ a : Byte, ∃ v : Byte, (if a = 0#8 then v = 0#8 else gmul a v = 1#8)
    ∧ sbox a = v ^^^ v.rotateLeft 1 ^^^ v.rotateLeft 2 ^^^ v.rotateLeft 3 ^^^ v.rotateLeft 4 ^^^ 0x63#8)
  ∧ (∀ a : Byte, isbox (sbox a) = a ∧ sbox (isbox a) = a)
  ∧ rcon 1 = 0x01#8 ∧ ∀ j, 1 ≤ j → j < 10 → rcon (j + 1) = xtime (rcon j)

/-- R121: gmul is commutative, associative and distributes over XOR, with 0 and 1 as they should be. -/
def Obligations.FieldMultiplicationLaws : Prop :=
  ∀ a b c : Byte, gmul a b = gmul b a ∧ gmul (gmul a b) c = gmul a (gmul b c)
    ∧ gmul a (b ^^^ c) = gmul a b ^^^ gmul a c ∧ gmul a 1#8 = a ∧ gmul a 0#8 = 0#8 ∧ gmul a 2#8 = xtime a

/-! ## Key schedule -/

/-- R135, R137: `expand` fails exactly when the key has not 16, 24 or 32 bytes; otherwise NR is Nk + 6 and the schedule has
4*(NR+1) words. -/
def Obligations.ExpandChecksTheLength : Prop :=
  ∀ key : Bytes,
    (key.length = 16 ∨ key.length = 24 ∨ key.length = 32 →
      ∃ w, expand key = .ok (w, key.length / 4 + 6) ∧ w.length = 4 * (key.length / 4 + 6 + 1))
    ∧ (key.length ≠ 16 → key.length ≠ 24 → key.length ≠ 32 → expand key = .error .invalidKeySize)

/-- R141 with R136, R138: KEXP stores the key's words, the words of the recurrence and zeros above them, sets NR and RKV, and
changes nothing else; any other KLEN fails `InvalidKeySize`. -/
def Obligations.KexpStoresTheSchedule : Prop :=
  encode .kexp = 0x00000010#32 ∧ ∀ st : State,
    (st.klen = 16#32 ∨ st.klen = 24#32 ∨ st.klen = 32#32 →
      let nk := st.klen.toNat / 4
      let nr := nk + 6
      ∃ k : Words 60,
        exec .kexp st = .next { st with err := 0#3, rk := k, nr := BitVec.ofNat 4 nr, rkv := true }
        ∧ (∀ i, i < nk → k.getD i 0#32 =
            be32 (st.key.read (4 * i)) (st.key.read (4 * i + 1)) (st.key.read (4 * i + 2)) (st.key.read (4 * i + 3)))
        ∧ (∀ i, nk ≤ i → i < 4 * (nr + 1) → k.getD i 0#32 = k.getD (i - nk) 0#32 ^^^
            (if i % nk = 0 then subWord (rotl32 (k.getD (i - 1) 0#32) 8) ^^^ (rcon (i / nk)).setWidth 32 <<< 24
             else if nk = 8 ∧ i % nk = 4 then subWord (k.getD (i - 1) 0#32)
             else k.getD (i - 1) 0#32))
        ∧ ∀ i, 4 * (nr + 1) ≤ i → i < 60 → k.getD i 0#32 = 0#32)
    ∧ (st.klen ≠ 16#32 → st.klen ≠ 24#32 → st.klen ≠ 32#32 → exec .kexp st = .next { st with err := 1#3 })

/-- R142: STRK r outputs the 16 bytes of round key r, most significant byte of each word first; it fails `IllegalCommand`
without a schedule or for r above NR. -/
def Obligations.StrkOutputsTheRoundKey : Prop :=
  ∀ (st : State) (r : BitVec 4), encode (.strk r) = 0x00000011#32 ||| (r.setWidth 32 <<< 8)
    ∧ (st.rkv = true → r ≤ st.nr →
        ∃ d, exec (.strk r) st = .next { st with err := 0#3, dout := d, olen := 16#32 }
          ∧ d.holds 16 fun i => byteOf (st.rk.getD (4 * r.toNat + i / 4) 0#32) (i % 4))
    ∧ (st.rkv = false ∨ st.nr < r → exec (.strk r) st = .next { st with err := 6#3 })

/-! ## Block transform -/

/-- R151: LDS loads DIN[0..16) big-endian into S and sets SV; it fails `IllegalCommand` for DLEN above DCAP and
`InvalidBlockSize` for any other DLEN than 16. -/
def Obligations.LdsLoadsTheBlock : Prop :=
  encode .lds = 0x00000012#32 ∧ ∀ st : State,
    (st.dlen ≤ st.cap → st.dlen = 16#32 →
      ∃ v : Words 4, exec .lds st = .next { st with err := 0#3, s := v, sv := true }
        ∧ ∀ c, (h : c < 4) → ∀ r, r < 4 → byteOf v[c] r = st.din.read (4 * c + r))
    ∧ (st.cap < st.dlen → exec .lds st = .next { st with err := 6#3 })
    ∧ (st.dlen ≤ st.cap → st.dlen ≠ 16#32 → exec .lds st = .next { st with err := 3#3 })

/-- R152: STS outputs the 16 bytes of S, most significant byte of each word first; S and SV stay. -/
def Obligations.StsOutputsTheBlock : Prop :=
  encode .sts = 0x00000013#32 ∧ ∀ st : State,
    (st.sv = true →
      ∃ d, exec .sts st = .next { st with err := 0#3, dout := d, olen := 16#32 }
        ∧ d.holds 16 fun i => byteOf (st.s.getD (i / 4) 0#32) (i % 4))
    ∧ (st.sv = false → exec .sts st = .next { st with err := 6#3 })

/-- R155: ARK r XORs round key r into S; it fails `IllegalCommand` without a schedule, without a loaded block, or for r above
NR, and always for r = 15; twice the same ARK restores S. -/
def Obligations.ArkXorsTheRoundKey : Prop :=
  ∀ (st : State) (r : BitVec 4), encode (.ark r) = 0x00000014#32 ||| (r.setWidth 32 <<< 8)
    ∧ (st.rkv = true → st.sv = true → r ≤ st.nr →
        ∃ v : Words 4, exec (.ark r) st = .next { st with err := 0#3, s := v }
          ∧ (∀ c, (h : c < 4) → v[c] = st.s[c] ^^^ st.rk.getD (4 * r.toNat + c) 0#32)
          ∧ execSeq [.ark r, .ark r] st = .next { st with err := 0#3 })
    ∧ (st.rkv = false ∨ st.sv = false ∨ st.nr < r → exec (.ark r) st = .next { st with err := 6#3 })
    ∧ (st.Inv → exec (.ark 15) st = .next { st with err := 6#3 })

/-- R157, R159: SUBB and ISUBB replace each of the 16 bytes of S by its table entry. -/
def Obligations.SubbAndIsubbSubstituteEachByte : Prop :=
  encode .subb = 0x00000015#32 ∧ encode .isubb = 0x00000016#32 ∧ ∀ st : State,
    (st.sv = true →
      (∃ v : Words 4, exec .subb st = .next { st with err := 0#3, s := v }
        ∧ ∀ c, (h : c < 4) → ∀ r, r < 4 → byteOf v[c] r = sbox (byteOf st.s[c] r))
      ∧ ∃ v : Words 4, exec .isubb st = .next { st with err := 0#3, s := v }
        ∧ ∀ c, (h : c < 4) → ∀ r, r < 4 → byteOf v[c] r = isbox (byteOf st.s[c] r))
    ∧ (st.sv = false → exec .subb st = .next { st with err := 6#3 } ∧ exec .isubb st = .next { st with err := 6#3 })

/-- R161, R163 with R160: SHROW rotates row r left by r columns, ISHROW right. -/
def Obligations.ShrowAndIshrowRotateRows : Prop :=
  encode .shrow = 0x00000017#32 ∧ encode .ishrow = 0x00000018#32 ∧ ∀ st : State,
    (st.sv = true →
      (∃ v : Words 4, exec .shrow st = .next { st with err := 0#3, s := v }
        ∧ ∀ c, (h : c < 4) → ∀ r, r < 4 → byteOf v[c] r = byteOf (st.s.getD ((c + r) % 4) 0#32) r)
      ∧ ∃ v : Words 4, exec .ishrow st = .next { st with err := 0#3, s := v }
        ∧ ∀ c, (h : c < 4) → ∀ r, r < 4 → byteOf v[c] r = byteOf (st.s.getD ((c + 4 - r) % 4) 0#32) r)
    ∧ (st.sv = false → exec .shrow st = .next { st with err := 6#3 } ∧ exec .ishrow st = .next { st with err := 6#3 })

/-- R165, R167 with R164, R166: each column of S is multiplied by the circulant matrix whose first row is 2, 3, 1, 1 (MIXC) or
14, 11, 13, 9 (IMIXC): the entry of row r and column k is the first row's entry (k - r) mod 4. The inverse
matrix is the spec's own inference (R166: "it is the unique matrix whose product with the matrix of rule R164 ... is the
identity"). -/
def Obligations.MixcAndImixcMultiplyColumns : Prop :=
  encode .mixc = 0x00000019#32 ∧ encode .imixc = 0x0000001A#32 ∧ ∀ st : State,
    (st.sv = true →
      let product (m : List Byte) (w : Word) (r : Nat) : Byte :=
        gmul (byteOf w 0) (m.getD ((4 - r) % 4) 0#8) ^^^ gmul (byteOf w 1) (m.getD ((5 - r) % 4) 0#8)
          ^^^ gmul (byteOf w 2) (m.getD ((6 - r) % 4) 0#8) ^^^ gmul (byteOf w 3) (m.getD ((7 - r) % 4) 0#8)
      (∃ v : Words 4, exec .mixc st = .next { st with err := 0#3, s := v }
        ∧ ∀ c, (h : c < 4) → ∀ r, r < 4 → byteOf v[c] r = product [2, 3, 1, 1] st.s[c] r)
      ∧ ∃ v : Words 4, exec .imixc st = .next { st with err := 0#3, s := v }
        ∧ ∀ c, (h : c < 4) → ∀ r, r < 4 → byteOf v[c] r = product [14, 11, 13, 9] st.s[c] r)
    ∧ (st.sv = false → exec .mixc st = .next { st with err := 6#3 } ∧ exec .imixc st = .next { st with err := 6#3 })

/-- R156, R160, R166: each step command followed by its inverse, in either order, restores S. -/
def Obligations.StepCommandsUndoTheirInverses : Prop :=
  ∀ st : State, st.sv = true →
    execSeq [.subb, .isubb] st = .next { st with err := 0#3 } ∧ execSeq [.isubb, .subb] st = .next { st with err := 0#3 }
    ∧ execSeq [.shrow, .ishrow] st = .next { st with err := 0#3 } ∧ execSeq [.ishrow, .shrow] st = .next { st with err := 0#3 }
    ∧ execSeq [.mixc, .imixc] st = .next { st with err := 0#3 } ∧ execSeq [.imixc, .mixc] st = .next { st with err := 0#3 }

/-- R170: the round sequence of `encryptBlock`: v r is the cipher state after the key addition of round r. -/
def Obligations.EncryptBlockFollowsTheRounds : Prop :=
  ∀ (b : Bytes) (rk : Words 60) (n : Nat), 1 ≤ n →
    ∃ v : Nat → Words 4,
      v 0 = addRoundKey (loadState b) rk 0
      ∧ (∀ r, 1 ≤ r → r ≤ n - 1 → v r = addRoundKey (mixColumns (shiftRows (subBytes (v (r - 1))))) rk r)
      ∧ encryptBlock b rk n = storeState (addRoundKey (shiftRows (subBytes (v (n - 1)))) rk n)

/-- R176: the round sequence of `decryptBlock`, round keys from N down: v r is the cipher state before the key addition of
round r. -/
def Obligations.DecryptBlockFollowsTheRounds : Prop :=
  ∀ (b : Bytes) (rk : Words 60) (n : Nat), 1 ≤ n →
    ∃ v : Nat → Words 4,
      v (n - 1) = invSubBytes (invShiftRows (addRoundKey (loadState b) rk n))
      ∧ (∀ r, 1 ≤ r → r ≤ n - 1 → v (r - 1) = invSubBytes (invShiftRows (invMixColumns (addRoundKey (v r) rk r))))
      ∧ decryptBlock b rk n = storeState (addRoundKey (v 0) rk 0)

/-- R177, the spec's own inference ("each step of R176 undoing the matching step of R170"): for every schedule and every
16-byte block, decryption undoes encryption and encryption undoes decryption. -/
def Obligations.BlockFunctionsAreInverse : Prop :=
  ∀ (rk : Words 60) (n : Nat) (b : Bytes), b.length = 16 →
    decryptBlock (encryptBlock b rk n) rk n = b ∧ encryptBlock (decryptBlock b rk n) rk n = b

/-- R172, R175: ENCB and DECB output the image of DIN[0..16); S and SV stay; without a schedule or with DLEN above DCAP they
fail `IllegalCommand`, with any other DLEN than 16 `InvalidBlockSize`. -/
def Obligations.EncbAndDecbOutputTheImage : Prop :=
  encode .encb = 0x0000001B#32 ∧ encode .decb = 0x0000001C#32 ∧ ∀ st : State,
    let block := (List.range 16).map fun i => st.din.read i
    (st.rkv = true → st.dlen ≤ st.cap → st.dlen = 16#32 →
      (∃ d, exec .encb st = .next { st with err := 0#3, dout := d, olen := 16#32 }
        ∧ d.holds 16 fun i => (encryptBlock block st.rk st.nr.toNat).getD i 0#8)
      ∧ ∃ d, exec .decb st = .next { st with err := 0#3, dout := d, olen := 16#32 }
        ∧ d.holds 16 fun i => (decryptBlock block st.rk st.nr.toNat).getD i 0#8)
    ∧ (st.rkv = false ∨ st.cap < st.dlen →
        exec .encb st = .next { st with err := 6#3 } ∧ exec .decb st = .next { st with err := 6#3 })
    ∧ (st.rkv = true → st.dlen ≤ st.cap → st.dlen ≠ 16#32 →
        exec .encb st = .next { st with err := 3#3 } ∧ exec .decb st = .next { st with err := 3#3 })

/-- R150 with R170: the step commands that spell out the round sequence leave the result of ENCB, and in S the cipher state whose
bytes are that result. -/
def Obligations.StepCommandsSpellOutEncb : Prop :=
  ∀ st : State, st.rkv = true → st.dlen = 16#32 → st.dlen ≤ st.cap →
    ∃ (t : State) (v : Words 4), exec .encb st = .next t
      ∧ execSeq (encryptSteps st.nr.toNat) st = .next { t with s := v, sv := true }
      ∧ storeState v = encryptBlock ((List.range 16).map fun i => st.din.read i) st.rk st.nr.toNat

/-! ## Padding -/

/-- R214 with R210: PAD outputs the data and then n bytes of value n up to the next multiple of 16, a whole block when DLEN is
one; it fails `IllegalCommand` when the data or the result do not fit. -/
def Obligations.PadAppendsTheCount : Prop :=
  encode .pad = 0x00000028#32 ∧ ∀ st : State,
    let len := st.dlen.toNat
    let padded := len + 16 - len % 16
    (len ≤ st.cap.toNat → padded ≤ st.cap.toNat →
      ∃ d, exec .pad st = .next { st with err := 0#3, dout := d, olen := BitVec.ofNat 32 padded }
        ∧ d.holds padded fun i => if i < len then st.din.read i else BitVec.ofNat 8 (padded - len))
    ∧ (st.cap.toNat < len ∨ st.cap.toNat < padded → exec .pad st = .next { st with err := 6#3 })

/-- R215 with R211: UNPAD checks the last byte p and the last p bytes and outputs the data before them; it fails
`InvalidPadding` on any violation and `IllegalCommand` for DLEN above DCAP. -/
def Obligations.UnpadChecksAndStrips : Prop :=
  encode .unpad = 0x00000029#32 ∧ ∀ st : State,
    let len := st.dlen.toNat
    let p := (st.din.read (len - 1)).toNat
    let valid := len ≠ 0 ∧ 1 ≤ p ∧ p ≤ 16 ∧ p ≤ len ∧ ∀ j, len - p ≤ j → j < len → (st.din.read j).toNat = p
    (len ≤ st.cap.toNat → valid →
      ∃ d, exec .unpad st = .next { st with err := 0#3, dout := d, olen := BitVec.ofNat 32 (len - p) }
        ∧ d.holds (len - p) fun i => st.din.read i)
    ∧ (len ≤ st.cap.toNat → ¬valid → exec .unpad st = .next { st with err := 5#3 })
    ∧ (st.cap.toNat < len → exec .unpad st = .next { st with err := 6#3 })

/-- R212, the spec's own inference from R210 and R211: `unpad(pad(x, bs), bs) = x` for every byte sequence x and every bs in
1..255. -/
def Obligations.UnpadUndoesPad : Prop :=
  ∀ (x : Bytes) (bs : Nat), 1 ≤ bs → bs ≤ 255 → unpadBytes (padBytes x bs) bs = .ok x

/-! ## CBC mode -/

/-- R194: the blocks of `cbcEncrypt`: block i is the encryption of padded block i XOR the ciphertext block before it, the IV for
block 0. -/
def Obligations.CbcEncryptChainsTheBlocks : Prop :=
  ∀ (data iv : Bytes) (rk : Words 60) (n : Nat),
    ∃ c : Nat → Bytes,
      let p := padBytes data 16
      p.length = data.length + 16 - data.length % 16
      ∧ c 0 = encryptBlock (xorBytes (blockOf p 0) iv) rk n
      ∧ (∀ i, c (i + 1) = encryptBlock (xorBytes (blockOf p (i + 1)) (c i)) rk n)
      ∧ cbcEncrypt data rk n iv = (List.range (p.length / 16)).flatMap c
      ∧ (cbcEncrypt data rk n iv).length = p.length

/-- R193: CBCE outputs `cbcEncrypt` of the data under the stored schedule and IV[0..16), and fails in the order of R307. Which
DLEN fit follows R193's `require` line and vector V25, not its remark on 4079 (notes/assumptions/4.md). -/
def Obligations.CbceOutputsTheCiphertext : Prop :=
  encode .cbce = 0x00000020#32 ∧ ∀ st : State,
    let len := st.dlen.toNat
    let padded := len + 16 - len % 16
    let data := (List.range len).map fun i => st.din.read i
    let iv := (List.range 16).map fun i => st.iv.read i
    let legal := st.rkv = true ∧ len ≤ st.cap.toNat ∧ padded ≤ st.cap.toNat
    (legal → st.ivlen = 16#32 →
      ∃ d, exec .cbce st = .next { st with err := 0#3, dout := d, olen := BitVec.ofNat 32 padded }
        ∧ d.holds padded fun i => (cbcEncrypt data st.rk st.nr.toNat iv).getD i 0#8)
    ∧ (¬legal → exec .cbce st = .next { st with err := 6#3 })
    ∧ (legal → st.ivlen ≠ 16#32 → exec .cbce st = .next { st with err := 2#3 })

/-- R195: the blocks of `cbcDecrypt`: block i is the decryption of ciphertext block i XOR the ciphertext block before it, the IV
for block 0, and `unpad` strips the result; any other length than a nonzero multiple of 16 fails. -/
def Obligations.CbcDecryptChainsTheBlocks : Prop :=
  ∀ (data iv : Bytes) (rk : Words 60) (n : Nat),
    (data.length ≠ 0 → data.length % 16 = 0 →
      cbcDecrypt data rk n iv = unpadBytes ((List.range (data.length / 16)).flatMap fun i =>
        xorBytes (decryptBlock (blockOf data i) rk n) (if i = 0 then iv else blockOf data (i - 1))) 16)
    ∧ (data.length = 0 ∨ data.length % 16 ≠ 0 → cbcDecrypt data rk n iv = .error .invalidCiphertextLength)

/-- R196: CBCD outputs `cbcDecrypt` of the data, or fails: `IllegalCommand`, then `InvalidIVSize`, then
`InvalidCiphertextLength`, then `InvalidPadding` with DOUT and OLEN as they were. -/
def Obligations.CbcdOutputsThePlaintext : Prop :=
  encode .cbcd = 0x00000021#32 ∧ ∀ st : State,
    let len := st.dlen.toNat
    let data := (List.range len).map fun i => st.din.read i
    let iv := (List.range 16).map fun i => st.iv.read i
    let legal := st.rkv = true ∧ len ≤ st.cap.toNat
    let aligned := len ≠ 0 ∧ len % 16 = 0
    (∀ m, legal → st.ivlen = 16#32 → aligned → cbcDecrypt data st.rk st.nr.toNat iv = .ok m →
      ∃ d, exec .cbcd st = .next { st with err := 0#3, dout := d, olen := BitVec.ofNat 32 m.length }
        ∧ d.holds m.length fun i => m.getD i 0#8)
    ∧ (legal → st.ivlen = 16#32 → aligned → (∀ m, cbcDecrypt data st.rk st.nr.toNat iv ≠ .ok m) →
        exec .cbcd st = .next { st with err := 5#3 })
    ∧ (¬legal → exec .cbcd st = .next { st with err := 6#3 })
    ∧ (legal → st.ivlen ≠ 16#32 → exec .cbcd st = .next { st with err := 2#3 })
    ∧ (legal → st.ivlen = 16#32 → ¬aligned → exec .cbcd st = .next { st with err := 4#3 })

/-- R197, the spec's own inference from R194, R195, R177 and R212: for every schedule, every 16-byte iv and every byte
sequence, CBC decryption undoes CBC encryption. -/
def Obligations.CbcRoundTrip : Prop :=
  ∀ (rk : Words 60) (n : Nat) (iv d : Bytes), iv.length = 16 → cbcDecrypt (cbcEncrypt d rk n iv) rk n iv = .ok d

/-! ## Stream state -/

/-- R228 with R227: SINIT writes the sixteen words of X and XV; NLEN above 12 fails `IllegalCommand` before any other KLEN than
32 fails `InvalidKeySize`. The four constants are the ones R225 supplies "from general knowledge, not in source"
(notes/assumptions/6.md). -/
def Obligations.SinitBuildsTheStreamState : Prop :=
  encode .sinit = 0x00000030#32 ∧ ∀ st : State,
    let keyWord (i : Nat) : Word :=
      le32 (st.key.read (4 * i)) (st.key.read (4 * i + 1)) (st.key.read (4 * i + 2)) (st.key.read (4 * i + 3))
    let nonceByte (j : Nat) : Byte := if j < st.nlen.toNat then st.nonce.read j else 0#8
    let nonceWord (i : Nat) : Word :=
      le32 (nonceByte (4 * i)) (nonceByte (4 * i + 1)) (nonceByte (4 * i + 2)) (nonceByte (4 * i + 3))
    (st.nlen ≤ 12#32 → st.klen = 32#32 →
      exec .sinit st = .next { st with err := 0#3, xv := true, x :=
        #v[0x61707865#32, 0x3320646E#32, 0x79622D32#32, 0x6B206574#32,
           keyWord 0, keyWord 1, keyWord 2, keyWord 3, keyWord 4, keyWord 5, keyWord 6, keyWord 7,
           st.ctr0, nonceWord 0, nonceWord 1, nonceWord 2] })
    ∧ (12#32 < st.nlen → exec .sinit st = .next { st with err := 6#3 })
    ∧ (st.nlen ≤ 12#32 → st.klen ≠ 32#32 → exec .sinit st = .next { st with err := 1#3 })

/-- R231 with R232: SINC adds 1 to X[12] modulo 2^32 and changes no other word. -/
def Obligations.SincAdvancesTheCounter : Prop :=
  encode .sinc = 0x00000031#32 ∧ ∀ st : State,
    (st.xv = true → ∃ v : Words 16, exec .sinc st = .next { st with err := 0#3, x := v }
      ∧ v[12] = st.x[12] + 1#32 ∧ ∀ i, (h : i < 16) → i ≠ 12 → v[i] = st.x[i])
    ∧ (st.xv = false → exec .sinc st = .next { st with err := 6#3 })

/-! ## Round function -/

/-- R242, R248: LDW copies X into W and sets WV; FFWD adds the current X to W word by word modulo 2^32. -/
def Obligations.LdwAndFfwdTakeTheStreamState : Prop :=
  encode .ldw = 0x00000038#32 ∧ encode .ffwd = 0x0000003B#32 ∧ ∀ st : State,
    (st.xv = true → exec .ldw st = .next { st with err := 0#3, w := st.x, wv := true })
    ∧ (st.xv = false → exec .ldw st = .next { st with err := 6#3 })
    ∧ (st.wv = true → st.xv = true → ∃ v : Words 16, exec .ffwd st = .next { st with err := 0#3, w := v }
        ∧ ∀ i, (h : i < 16) → v[i] = st.w[i] + st.x[i])
    ∧ (st.wv = false ∨ st.xv = false → exec .ffwd st = .next { st with err := 6#3 })

/-- R244 with R241: QR on four distinct indices writes the four words the eight assignments give and no other word; a repeated
index or WV = 0 fails `IllegalCommand`. -/
def Obligations.QrMixesFourWords : Prop :=
  ∀ (st : State) (a b c d : BitVec 4),
    encode (.qr a b c d) = 0x00000039#32 ||| (a.setWidth 32 <<< 8) ||| (b.setWidth 32 <<< 12) ||| (c.setWidth 32 <<< 16)
      ||| (d.setWidth 32 <<< 20)
    ∧ (st.wv = true → indicesDistinct a b c d = true →
        let a1 := st.w[a.toNat] + st.w[b.toNat]
        let d1 := rotl32 (st.w[d.toNat] ^^^ a1) 16
        let c1 := st.w[c.toNat] + d1
        let b1 := rotl32 (st.w[b.toNat] ^^^ c1) 12
        let a2 := a1 + b1
        let d2 := rotl32 (d1 ^^^ a2) 8
        let c2 := c1 + d2
        let b2 := rotl32 (b1 ^^^ c2) 7
        ∃ v : Words 16, exec (.qr a b c d) st = .next { st with err := 0#3, w := v }
          ∧ v[a.toNat] = a2 ∧ v[b.toNat] = b2 ∧ v[c.toNat] = c2 ∧ v[d.toNat] = d2
          ∧ ∀ i, (h : i < 16) → i ≠ a.toNat → i ≠ b.toNat → i ≠ c.toNat → i ≠ d.toNat → v[i] = st.w[i])
    ∧ (st.wv = false ∨ indicesDistinct a b c d = false → exec (.qr a b c d) st = .next { st with err := 6#3 })

/-- R246 with R245: DRND is the eight QR commands of one iteration (R253: "One DRND equals the eight QR commands", the spec's
own inference); WV = 0 fails `IllegalCommand`. -/
def Obligations.DrndIsEightQuarterRounds : Prop :=
  encode .drnd = 0x0000003A#32 ∧ ∀ st : State,
    (st.wv = true → ∃ v : Words 16, exec .drnd st = .next { st with err := 0#3, w := v }
      ∧ execSeq iterationSteps st = .next { st with err := 0#3, w := v })
    ∧ (st.wv = false → exec .drnd st = .next { st with err := 6#3 })

/-- R250: SERW outputs the 64 bytes of W: byte 4i + j is bits [8j+7 : 8j] of W[i]; W and WV stay. -/
def Obligations.SerwSerialisesTheBuffer : Prop :=
  encode .serw = 0x0000003C#32 ∧ ∀ st : State,
    (st.wv = true → ∃ d, exec .serw st = .next { st with err := 0#3, dout := d, olen := 64#32 }
      ∧ d.holds 64 fun k => (st.w.getD (k / 4) 0#32).extractLsb' (8 * (k % 4)) 8)
    ∧ (st.wv = false → exec .serw st = .next { st with err := 6#3 })

/-- R252 with R251: SBLK outputs the keystream block of X: the serialisation of ten iterations on a copy plus the original, word
by word; X, W and WV stay. -/
def Obligations.SblkOutputsTheKeystreamBlock : Prop :=
  encode .sblk = 0x0000003D#32 ∧ ∀ st : State,
    (st.xv = true → ∃ (d : Memory) (v : Nat → Words 16),
      exec .sblk st = .next { st with err := 0#3, dout := d, olen := 64#32 }
      ∧ v 0 = st.x ∧ (∀ k, v (k + 1) = doubleRound (v k))
      ∧ d.holds 64 fun k => ((v 10).getD (k / 4) 0#32 + st.x.getD (k / 4) 0#32).extractLsb' (8 * (k % 4)) 8)
    ∧ (st.xv = false → exec .sblk st = .next { st with err := 6#3 })

/-- R253, the spec's own inference from the command rules: LDW, ten DRND, FFWD and SERW leave in DOUT the bytes SBLK leaves
there. -/
def Obligations.StepCommandsSpellOutSblk : Prop :=
  ∀ st : State, st.xv = true →
    ∃ (t : State) (v : Words 16), exec .sblk st = .next t
      ∧ execSeq blockSteps st = .next { t with w := v, wv := true }

/-! ## Stream combiner -/

/-- R266: SAPPLY XORs the data with the keystream and advances X[12] by ceil(DLEN / 64); no other word of X changes. That byte
64i + j meets byte j of the block for counter X[12] + i is R269's closed form, the spec's own inference from R265
(47_stream_combiner.md section 1). -/
def Obligations.SapplyXorsTheKeystream : Prop :=
  encode .sapply = 0x00000040#32 ∧ ∀ st : State,
    (st.xv = true → st.dlen ≤ st.cap →
      ∃ d, exec .sapply st = .next { st with
          err := 0#3, dout := d, olen := st.dlen, x := st.x.set 12 (st.x[12] + BitVec.ofNat 32 ((st.dlen.toNat + 63) / 64)) }
        ∧ d.holds st.dlen.toNat fun k =>
            st.din.read k ^^^ (streamBlock (st.x.set 12 (st.x[12] + BitVec.ofNat 32 (k / 64)))).getD (k % 64) 0#8)
    ∧ (st.xv = false ∨ st.cap < st.dlen → exec .sapply st = .next { st with err := 6#3 })

/-- R267, the spec's own inference from R265: `apply` from the same starting state undoes itself. -/
def Obligations.ApplyIsSelfInverse : Prop :=
  ∀ (x : Words 16) (data : Bytes), (streamApply x (streamApply x data).2).2 = data

/-! ## Rules of the whole machine -/

/-- R300: a command that fails changes ERR and nothing else. -/
def Obligations.FailingCommandChangesErrOnly : Prop :=
  ∀ (i : Instr) (st t : State), exec i st = .next t → t.err ≠ 0#3 → t = { st with err := t.err }

/-- R304: ERR is never an input to a command. -/
def Obligations.ErrIsNoInput : Prop :=
  ∀ (i : Instr) (st : State) (e : BitVec 3), exec i { st with err := e } = exec i st

/-- R308, the spec's own inference from the command rules: a command can report exactly the errors of its row of the table. -/
def Obligations.CommandsReportTheListedErrors : Prop :=
  ∀ (i : Instr) (e : ErrorKind), e ∈ i.canReport ↔ ∃ st t : State, exec i st = .next t ∧ t.err = e.code

/-- R298: a command whose register file holds no value fails `IllegalCommand`. -/
def Obligations.InvalidFileFailsIllegalCommand : Prop :=
  ∀ (i : Instr) (st : State),
    (i.needs.1 = true ∧ st.rkv = false) ∨ (i.needs.2.1 = true ∧ st.sv = false) ∨ (i.needs.2.2.1 = true ∧ st.xv = false)
      ∨ (i.needs.2.2.2 = true ∧ st.wv = false) →
    exec i st = .next { st with err := 6#3 }

/-- R24: only KEXP, LDS, SINIT and LDW set a valid flag, each its own and only when it succeeds, and only RST clears one. -/
def Obligations.ValidFlagsFollowTheirCommands : Prop :=
  ∀ (i : Instr) (st t : State), exec i st = .next t →
    (t.rkv = true ↔ i ≠ .rst ∧ (st.rkv = true ∨ (i = .kexp ∧ t.err = 0#3)))
    ∧ (t.sv = true ↔ i ≠ .rst ∧ (st.sv = true ∨ (i = .lds ∧ t.err = 0#3)))
    ∧ (t.xv = true ↔ i ≠ .rst ∧ (st.xv = true ∨ (i = .sinit ∧ t.err = 0#3)))
    ∧ (t.wv = true ↔ i ≠ .rst ∧ (st.wv = true ∨ (i = .ldw ∧ t.err = 0#3)))

/-- R39, the spec's own inference from the command rules: no command but RST writes an operand. -/
def Obligations.OperandsAreImmutable : Prop :=
  ∀ (i : Instr) (st t : State), i ≠ .rst → exec i st = .next t →
    t.key = st.key ∧ t.klen = st.klen ∧ t.iv = st.iv ∧ t.ivlen = st.ivlen ∧ t.nonce = st.nonce ∧ t.nlen = st.nlen
      ∧ t.ctr0 = st.ctr0 ∧ t.din = st.din ∧ t.dlen = st.dlen ∧ t.cap = st.cap

/-- R68: a command that fails or produces no output leaves DOUT and OLEN as they were; RST clears them. -/
def Obligations.OutputIsKeptWithoutOutput : Prop :=
  ∀ (i : Instr) (st t : State), exec i st = .next t →
    (t.err ≠ 0#3 ∨ i.producesNoOutput = true → t.dout = st.dout ∧ t.olen = st.olen)
    ∧ (i = .rst → t.dout = [] ∧ t.olen = 0#32)

/-- R41, R45: RK and NR change only in a successful KEXP, X[0..11] and X[13..15] only in a successful SINIT, RST apart; X[12]
changes only in SINIT, SINC and SAPPLY. -/
def Obligations.SessionsKeepScheduleAndStreamState : Prop :=
  ∀ (i : Instr) (st t : State), i ≠ .rst → exec i st = .next t →
    (i ≠ .kexp ∨ t.err ≠ 0#3 → t.rk = st.rk ∧ t.nr = st.nr ∧ t.rkv = st.rkv)
    ∧ (i ≠ .sinit ∨ t.err ≠ 0#3 → t.xv = st.xv ∧ ∀ j, (h : j < 16) → j ≠ 12 → t.x[j] = st.x[j])
    ∧ (i ≠ .sinit → i ≠ .sinc → i ≠ .sapply → t.x = st.x)

/-- R316: the two units do not interact: a command of the block unit neither reads nor writes X, XV, W or WV, and a command of
the stream unit neither reads nor writes RK, NR, RKV, S or SV. -/
def Obligations.UnitsDoNotInteract : Prop :=
  ∀ (i : Instr) (st : State),
    (i.isBlockUnit = true → ∀ (x w : Words 16) (xv wv : Bool), ∃ t : State, exec i st = .next t
      ∧ t.x = st.x ∧ t.xv = st.xv ∧ t.w = st.w ∧ t.wv = st.wv
      ∧ exec i { st with x := x, xv := xv, w := w, wv := wv } = .next { t with x := x, xv := xv, w := w, wv := wv })
    ∧ (i.isStreamUnit = true → ∀ (rk : Words 60) (nr : BitVec 4) (s : Words 4) (rkv sv : Bool), ∃ t : State,
      exec i st = .next t ∧ t.rk = st.rk ∧ t.nr = st.nr ∧ t.rkv = st.rkv ∧ t.s = st.s ∧ t.sv = st.sv
      ∧ exec i { st with rk := rk, nr := nr, rkv := rkv, s := s, sv := sv }
        = .next { t with rk := rk, nr := nr, rkv := rkv, s := s, sv := sv })
end

