-- ==== Sys2Proof/Laws/Memory.lean ====
section
/-! SUPPORT. The laws of byte buffers: what a write and a whole result read as, and that every operation keeps the canonical
form and the size. -/
namespace Sys2Proof.Machine

@[simp] theorem Memory.read_nil (a : Nat) : Memory.read [] a = 0#8 := rfl

theorem Memory.read_cons (b : Nat) (v : Byte) (m : Memory) (a : Nat) :
    Memory.read ((b, v) :: m) a = if b = a then v else Memory.read m a := rfl

/-- An address below every listed one is unlisted. -/
theorem Memory.read_eq_zero_of_lt (m : Memory) (a : Nat) (h : ∀ c ∈ m, a < c.1) : m.read a = 0#8 := by
  induction m with
  | nil => rfl
  | cons c m ih =>
    obtain ⟨b, v⟩ := c
    have hb : a < b := h (b, v) (by simp)
    rw [Memory.read_cons, if_neg (by omega), ih fun c hc => h c (by simp [hc])]

/-- An address at or above the size is unlisted. -/
theorem Memory.read_eq_zero_of_below (m : Memory) (n a : Nat) (h : m.below n) (ha : n ≤ a) : m.read a = 0#8 := by
  induction m with
  | nil => rfl
  | cons c m ih =>
    obtain ⟨b, v⟩ := c
    have hb : b < n := h (b, v) (by simp)
    rw [Memory.read_cons, if_neg (by omega), ih fun c hc => h c (by simp [hc])]

theorem Memory.read_write_other (m : Memory) (a b : Nat) (v : Byte) (h : a ≠ b) : (m.write a v).read b = m.read b := by
  induction m with
  | nil => unfold Memory.write; split <;> simp [Memory.read_cons, h]
  | cons c m ih =>
    obtain ⟨e, u⟩ := c
    unfold Memory.write
    split_ifs with h1 h2 h3 h4
    · rfl
    · simp [Memory.read_cons, h]
    · subst h3; simp [Memory.read_cons, h]
    · subst h3; simp [Memory.read_cons, h]
    · simp [Memory.read_cons, ih]

theorem Memory.read_write_same (m : Memory) (a : Nat) (v : Byte) (h : m.wf) : (m.write a v).read a = v := by
  induction m with
  | nil => unfold Memory.write; split <;> simp_all [Memory.read_cons]
  | cons c m ih =>
    obtain ⟨e, u⟩ := c
    obtain ⟨hp, hz⟩ := h
    rw [List.pairwise_cons] at hp
    have hlt : ∀ c ∈ m, e < c.1 := fun c hc => hp.1 c hc
    unfold Memory.write
    split_ifs with h1 h2 h3 h4
    · rw [h2]
      refine Memory.read_eq_zero_of_lt _ _ fun c hc => ?_
      rcases List.mem_cons.1 hc with rfl | hc
      · exact h1
      · exact Nat.lt_trans h1 (hlt c hc)
    · simp [Memory.read_cons]
    · subst h3; rw [h4]; exact Memory.read_eq_zero_of_lt _ _ hlt
    · simp [Memory.read_cons]
    · rw [Memory.read_cons, if_neg (by omega)]
      exact ih ⟨hp.2, fun c hc => hz c (by simp [hc])⟩

/-- A write lists nothing but the cells listed before and the one written. -/
theorem Memory.mem_write (m : Memory) (a : Nat) (v : Byte) (c : Host.Cell) (h : c ∈ m.write a v) :
    c ∈ m ∨ (c = (a, v) ∧ v ≠ 0#8) := by
  induction m with
  | nil => unfold Memory.write at h; split at h <;> simp_all
  | cons d m ih =>
    obtain ⟨e, u⟩ := d
    unfold Memory.write at h
    split_ifs at h with h1 h2 h3 h4
    · exact .inl h
    · rcases List.mem_cons.1 h with h | h
      · exact .inr ⟨h, h2⟩
      · exact .inl h
    · exact .inl (List.mem_cons_of_mem _ h)
    · rcases List.mem_cons.1 h with h | h
      · exact .inr ⟨h, h4⟩
      · exact .inl (List.mem_cons_of_mem _ h)
    · rcases List.mem_cons.1 h with h | h
      · exact .inl (by simp [h])
      · rcases ih h with h | h
        · exact .inl (List.mem_cons_of_mem _ h)
        · exact .inr h

theorem Memory.wf_write (m : Memory) (a : Nat) (v : Byte) (h : m.wf) : (m.write a v).wf := by
  refine ⟨?_, fun c hc => ?_⟩
  · induction m with
    | nil => unfold Memory.write; split <;> simp
    | cons d m ih =>
      obtain ⟨e, u⟩ := d
      obtain ⟨hp, hz⟩ := h
      have hp' := List.pairwise_cons.1 hp
      unfold Memory.write
      split_ifs with h1 h2 h3 h4
      · exact hp
      · refine List.pairwise_cons.2 ⟨fun c hc => ?_, hp⟩
        rcases List.mem_cons.1 hc with rfl | hc
        · exact h1
        · exact Nat.lt_trans h1 (hp'.1 c hc)
      · exact hp'.2
      · exact List.pairwise_cons.2 ⟨fun c hc => by subst h3; exact hp'.1 c hc, hp'.2⟩
      · refine List.pairwise_cons.2 ⟨fun c hc => ?_, ih ⟨hp'.2, fun c hc => hz c (by simp [hc])⟩⟩
        rcases Memory.mem_write m a v c hc with hc | ⟨rfl, _⟩
        · exact hp'.1 c hc
        · show e < a; omega
  · rcases Memory.mem_write m a v c hc with hc | ⟨rfl, hv⟩
    · exact h.2 c hc
    · exact hv

theorem Memory.below_write (m : Memory) (n a : Nat) (v : Byte) (h : m.below n) (ha : a < n) : (m.write a v).below n := by
  intro c hc
  rcases Memory.mem_write m a v c hc with hc | ⟨rfl, _⟩
  · exact h c hc
  · exact ha

/-! ### A whole result -/

theorem Memory.mem_ofBytesFrom (v : Bytes) (a : Nat) (c : Host.Cell) (h : c ∈ Memory.ofBytesFrom a v) :
    a ≤ c.1 ∧ c.1 < a + v.length ∧ c.2 ≠ 0#8 := by
  induction v generalizing a with
  | nil => simp [Memory.ofBytesFrom] at h
  | cons u v ih =>
    unfold Memory.ofBytesFrom at h
    split_ifs at h with h0
    · have := ih (a + 1) h
      simp only [List.length_cons]
      exact ⟨by omega, by omega, this.2.2⟩
    · rcases List.mem_cons.1 h with rfl | h
      · exact ⟨Nat.le_refl _, by simp, h0⟩
      · have := ih (a + 1) h
        simp only [List.length_cons]
        exact ⟨by omega, by omega, this.2.2⟩

theorem Memory.wf_ofBytesFrom (v : Bytes) (a : Nat) : (Memory.ofBytesFrom a v).wf := by
  refine ⟨?_, fun c hc => (Memory.mem_ofBytesFrom v a c hc).2.2⟩
  induction v generalizing a with
  | nil => simp [Memory.ofBytesFrom]
  | cons u v ih =>
    unfold Memory.ofBytesFrom
    split_ifs
    · exact ih (a + 1)
    · exact List.pairwise_cons.2 ⟨fun c hc => (Memory.mem_ofBytesFrom v (a + 1) c hc).1, ih (a + 1)⟩

theorem Memory.read_ofBytesFrom (v : Bytes) (a i : Nat) : (Memory.ofBytesFrom a v).read (a + i) = v.getD i 0#8 := by
  induction v generalizing a i with
  | nil => simp [Memory.ofBytesFrom]
  | cons u v ih =>
    cases i with
    | zero =>
      unfold Memory.ofBytesFrom
      split_ifs with h0
      · rw [Memory.read_eq_zero_of_lt _ (a + 0) fun c hc => Nat.lt_of_succ_le (Memory.mem_ofBytesFrom v (a + 1) c hc).1]
        simp [h0]
      · simp [Memory.read_cons]
    | succ i =>
      have h1 := ih (a + 1) i
      rw [Nat.add_assoc, Nat.add_comm 1 i] at h1
      unfold Memory.ofBytesFrom
      split_ifs with h0
      · rw [h1]; simp
      · rw [Memory.read_cons, if_neg (by omega), h1]; simp

theorem Memory.wf_ofBytes (v : Bytes) : (Memory.ofBytes v).wf := Memory.wf_ofBytesFrom v 0

theorem Memory.read_ofBytes (v : Bytes) (i : Nat) : (Memory.ofBytes v).read i = v.getD i 0#8 := by
  have h := Memory.read_ofBytesFrom v 0 i
  rwa [Nat.zero_add] at h

theorem Memory.below_ofBytes (v : Bytes) (n : Nat) (h : v.length ≤ n) : (Memory.ofBytes v).below n := by
  intro c hc
  have := Memory.mem_ofBytesFrom v 0 c hc
  omega

/-! ### Reading an operand -/

@[simp] theorem Memory.length_slice (m : Memory) (off n : Nat) : (m.slice off n).length = n := by simp [Memory.slice]

theorem Memory.getD_slice (m : Memory) (off n i : Nat) :
    (m.slice off n).getD i 0#8 = if i < n then m.read (off + i) else 0#8 := by
  unfold Memory.slice
  split_ifs with h
  · simp [List.getD, h]
  · simp [List.getD, h]

end Sys2Proof.Machine
end

