-- ==== Sys2Proof/Laws/Words.lean ====
section
/-! SUPPORT. The laws of the byte and word conversions: packing and unpacking undo each other, every serialisation has its
length and its bytes. -/
namespace Sys2Proof.Machine

theorem getLsbD_be32 (b0 b1 b2 b3 : Byte) (i : Nat) :
    (be32 b0 b1 b2 b3).getLsbD i = if i < 8 then b3.getLsbD i else if i < 16 then b2.getLsbD (i - 8)
      else if i < 24 then b1.getLsbD (i - 16) else b0.getLsbD (i - 24) := by
  change BitVec.getLsbD (w := 8 + 8 + 8 + 8) (b0 ++ b1 ++ b2 ++ b3) i = _
  simp only [BitVec.getLsbD_append]
  split_ifs <;> first | (exfalso; omega) | rfl

/-- The bytes of a packed word (00_scope.md section 7: `bebytes` is the inverse of `be32`). -/
theorem byteOf_be32 (b0 b1 b2 b3 : Byte) :
    byteOf (be32 b0 b1 b2 b3) 0 = b0 ∧ byteOf (be32 b0 b1 b2 b3) 1 = b1 ∧ byteOf (be32 b0 b1 b2 b3) 2 = b2
      ∧ byteOf (be32 b0 b1 b2 b3) 3 = b3 := by
  refine ⟨?_, ?_, ?_, ?_⟩ <;>
    (refine BitVec.eq_of_getLsbD_eq fun i hi => ?_
     simp only [byteOf, BitVec.getLsbD_extractLsb', getLsbD_be32, hi, decide_true, Bool.true_and]
     split_ifs <;> first | omega | (congr 1; omega))

@[simp] theorem byteOf_be32_zero (b0 b1 b2 b3 : Byte) : byteOf (be32 b0 b1 b2 b3) 0 = b0 := (byteOf_be32 b0 b1 b2 b3).1

@[simp] theorem byteOf_be32_one (b0 b1 b2 b3 : Byte) : byteOf (be32 b0 b1 b2 b3) 1 = b1 := (byteOf_be32 b0 b1 b2 b3).2.1

@[simp] theorem byteOf_be32_two (b0 b1 b2 b3 : Byte) : byteOf (be32 b0 b1 b2 b3) 2 = b2 :=
  (byteOf_be32 b0 b1 b2 b3).2.2.1

@[simp] theorem byteOf_be32_three (b0 b1 b2 b3 : Byte) : byteOf (be32 b0 b1 b2 b3) 3 = b3 :=
  (byteOf_be32 b0 b1 b2 b3).2.2.2

/-- A word is its four bytes packed. -/
@[simp] theorem be32_byteOf (w : Word) : be32 (byteOf w 0) (byteOf w 1) (byteOf w 2) (byteOf w 3) = w := by
  refine BitVec.eq_of_getLsbD_eq fun i hi => ?_
  simp only [byteOf, BitVec.getLsbD_extractLsb', getLsbD_be32]
  split_ifs <;> (rw [decide_eq_true (by omega), Bool.true_and]; congr 1; omega)

/-- Two words with the same bytes are the same word. -/
theorem word_ext {v w : Word} (h : ∀ r, r < 4 → byteOf v r = byteOf w r) : v = w := by
  rw [← be32_byteOf v, ← be32_byteOf w, h 0 (by decide), h 1 (by decide), h 2 (by decide), h 3 (by decide)]

@[simp] theorem byteOf_xor (v w : Word) (r : Nat) : byteOf (v ^^^ w) r = byteOf v r ^^^ byteOf w r := by
  refine BitVec.eq_of_getLsbD_eq fun i hi => ?_
  simp only [byteOf, BitVec.getLsbD_extractLsb', BitVec.getLsbD_xor, hi, decide_true, Bool.true_and]

theorem bebytes_eq (w : Word) : bebytes w = [byteOf w 0, byteOf w 1, byteOf w 2, byteOf w 3] := rfl

theorem lebytes_eq (w : Word) : lebytes w = [byteOf w 3, byteOf w 2, byteOf w 1, byteOf w 0] := rfl

/-! ### Blocks -/

theorem storeState_eq (v : Words 4) :
    storeState v = [byteOf v[0] 0, byteOf v[0] 1, byteOf v[0] 2, byteOf v[0] 3, byteOf v[1] 0, byteOf v[1] 1, byteOf v[1] 2,
      byteOf v[1] 3, byteOf v[2] 0, byteOf v[2] 1, byteOf v[2] 2, byteOf v[2] 3, byteOf v[3] 0, byteOf v[3] 1, byteOf v[3] 2,
      byteOf v[3] 3] := rfl

@[simp] theorem length_storeState (v : Words 4) : (storeState v).length = 16 := rfl

/-- Byte 4c + r of a stored block is row r of column c (R153). -/
theorem getD_storeState (v : Words 4) (i : Nat) (h : i < 16) :
    (storeState v).getD i 0#8 = byteOf (v[i / 4]'(by omega)) (i % 4) := by
  rw [storeState_eq]
  interval_cases i <;> rfl

@[simp] theorem getElem_loadState (b : Bytes) (c : Nat) (h : c < 4) : (loadState b)[c] = beWord b c := by
  simp [loadState]

/-- Two blocks with the same words are the same. -/
theorem words4_ext {v w : Words 4} (h : ∀ c (hc : c < 4), v[c] = w[c]) : v = w := Vector.ext h

/-- Loading a stored block gives it back. -/
@[simp] theorem loadState_storeState (v : Words 4) : loadState (storeState v) = v := by
  refine words4_ext fun c hc => ?_
  rw [getElem_loadState]
  interval_cases c <;> exact be32_byteOf _

/-- Storing a loaded block gives its 16 bytes back (R153). -/
theorem storeState_loadState (b : Bytes) (h : b.length = 16) : storeState (loadState b) = b := by
  refine List.ext_getElem (by simp [h]) fun i h1 h2 => ?_
  have h3 : i < 16 := by simpa using h1
  have e := getD_storeState (loadState b) i h3
  rw [List.getD_eq_getElem _ _ h1] at e
  rw [e, getElem_loadState]
  have hb : b[i] = byteAt b i := by simp [byteAt, h2]
  rw [hb]
  interval_cases i <;> simp [beWord]

/-! ### Sixteen words -/

@[simp] theorem length_lebytes (w : Word) : (lebytes w).length = 4 := rfl

@[simp] theorem length_serialise (v : Words 16) : (serialise v).length = 64 := by
  simp [serialise, List.length_flatMap]

/-- Byte 4i + j of a serialisation is bits [8j+7 : 8j] of word i (R250). -/
theorem getD_serialise (v : Words 16) (i : Nat) (h : i < 64) :
    (serialise v).getD i 0#8 = (v[i / 4]'(by omega)).extractLsb' (8 * (i % 4)) 8 := by
  obtain ⟨⟨l⟩, hl⟩ := v
  match l, hl with
  | [_, _, _, _, _, _, _, _, _, _, _, _, _, _, _, _], _ => interval_cases i <;> rfl

@[simp] theorem length_streamBlock (x : Words 16) : (streamBlock x).length = 64 := length_serialise _

@[simp] theorem length_xorBytes (a b : Bytes) : (xorBytes a b).length = min a.length b.length := by simp [xorBytes]

/-- XOR with the same bytes twice gives the first sequence back. -/
theorem xorBytes_xorBytes (a b : Bytes) (h : a.length ≤ b.length) : xorBytes (xorBytes a b) b = a := by
  refine List.ext_getElem (by simp [h]) fun i h1 h2 => ?_
  simp [xorBytes]

end Sys2Proof.Machine
end

