-- ==== Sys2Proof/Laws/Lengths.lean ====
section
/-! SUPPORT. The lengths of what the functions return: every bound the output discipline needs (20_memory.md R67). -/
namespace Sys2Proof.Machine

@[simp] theorem length_encryptBlock (b : Bytes) (rk : Words 60) (n : Nat) : (encryptBlock b rk n).length = 16 := by
  simp [encryptBlock]

@[simp] theorem length_decryptBlock (b : Bytes) (rk : Words 60) (n : Nat) : (decryptBlock b rk n).length = 16 := by
  simp [decryptBlock]

@[simp] theorem length_roundKeyBytes (rk : Words 60) (r : Nat) : (roundKeyBytes rk r).length = 16 := rfl

/-- The padded length of R210 at block size 16. -/
theorem length_padBytes (d : Bytes) : (padBytes d 16).length = d.length + 16 - d.length % 16 := by
  simp [padBytes]; omega

/-- The stripped data are a part of the padded data (R211). -/
theorem length_unpadBytes {d m : Bytes} {bs : Nat} (h : unpadBytes d bs = .ok m) : m.length ≤ d.length := by
  unfold unpadBytes at h; dsimp only at h; split_ifs at h; cases h; simp

@[simp] theorem length_cbcEncryptBlocks (rk : Words 60) (n k : Nat) (c p : Bytes) :
    (cbcEncryptBlocks rk n k c p).length = 16 * k := by
  induction k generalizing c p with
  | zero => rfl
  | succ k ih => simp [cbcEncryptBlocks, ih]; omega

theorem length_cbcDecryptBlocks (rk : Words 60) (n k : Nat) (c p : Bytes) :
    (cbcDecryptBlocks rk n k c p).length ≤ 16 * k := by
  induction k generalizing c p with
  | zero => simp [cbcDecryptBlocks]
  | succ k ih =>
    have := ih (p.take 16) (p.drop 16)
    simp [cbcDecryptBlocks]; omega

/-- Enough chunks give as many bytes as the data have (R265). -/
theorem length_applyChunks (n : Nat) (x : Words 16) (d : Bytes) (h : d.length ≤ 64 * n) :
    (applyChunks n x d).2.length = d.length := by
  induction n generalizing x d with
  | zero => simp at h; simp [applyChunks, h]
  | succ n ih =>
    have := ih (advanceCounter x) (d.drop 64) (by simp; omega)
    simp [applyChunks, this]; omega

@[simp] theorem length_extendSchedule (nk k : Nat) (w : List Word) : (extendSchedule nk k w).length = w.length + k := by
  induction k generalizing w with
  | zero => rfl
  | succ k ih => simp [extendSchedule, ih]; omega

end Sys2Proof.Machine
end

