-- ==== Sys2Proof/Laws/State.lean ====
section
/-! SUPPORT. What every update of the state does to every field: one lemma per field per update, true by unfolding, so that no
proof unfolds a record update. -/
namespace Sys2Proof.Machine

variable (st : State)

/-! ### setErr -/

@[simp] theorem State.setErr_err (e : BitVec 3) : (st.setErr e).err = e := rfl
@[simp] theorem State.setErr_klen (e : BitVec 3) : (st.setErr e).klen = st.klen := rfl
@[simp] theorem State.setErr_ivlen (e : BitVec 3) : (st.setErr e).ivlen = st.ivlen := rfl
@[simp] theorem State.setErr_nlen (e : BitVec 3) : (st.setErr e).nlen = st.nlen := rfl
@[simp] theorem State.setErr_ctr0 (e : BitVec 3) : (st.setErr e).ctr0 = st.ctr0 := rfl
@[simp] theorem State.setErr_dlen (e : BitVec 3) : (st.setErr e).dlen = st.dlen := rfl
@[simp] theorem State.setErr_olen (e : BitVec 3) : (st.setErr e).olen = st.olen := rfl
@[simp] theorem State.setErr_nr (e : BitVec 3) : (st.setErr e).nr = st.nr := rfl
@[simp] theorem State.setErr_cap (e : BitVec 3) : (st.setErr e).cap = st.cap := rfl
@[simp] theorem State.setErr_rkv (e : BitVec 3) : (st.setErr e).rkv = st.rkv := rfl
@[simp] theorem State.setErr_sv (e : BitVec 3) : (st.setErr e).sv = st.sv := rfl
@[simp] theorem State.setErr_xv (e : BitVec 3) : (st.setErr e).xv = st.xv := rfl
@[simp] theorem State.setErr_wv (e : BitVec 3) : (st.setErr e).wv = st.wv := rfl
@[simp] theorem State.setErr_key (e : BitVec 3) : (st.setErr e).key = st.key := rfl
@[simp] theorem State.setErr_iv (e : BitVec 3) : (st.setErr e).iv = st.iv := rfl
@[simp] theorem State.setErr_nonce (e : BitVec 3) : (st.setErr e).nonce = st.nonce := rfl
@[simp] theorem State.setErr_din (e : BitVec 3) : (st.setErr e).din = st.din := rfl
@[simp] theorem State.setErr_dout (e : BitVec 3) : (st.setErr e).dout = st.dout := rfl
@[simp] theorem State.setErr_rk (e : BitVec 3) : (st.setErr e).rk = st.rk := rfl
@[simp] theorem State.setErr_s (e : BitVec 3) : (st.setErr e).s = st.s := rfl
@[simp] theorem State.setErr_x (e : BitVec 3) : (st.setErr e).x = st.x := rfl
@[simp] theorem State.setErr_w (e : BitVec 3) : (st.setErr e).w = st.w := rfl
@[simp] theorem State.setErr_pending (e : BitVec 3) : (st.setErr e).pending = st.pending := rfl
@[simp] theorem State.setErr_response (e : BitVec 3) : (st.setErr e).response = st.response := rfl

/-! ### out -/

@[simp] theorem State.out_err (v : Bytes) : (st.out v).err = st.err := rfl
@[simp] theorem State.out_klen (v : Bytes) : (st.out v).klen = st.klen := rfl
@[simp] theorem State.out_ivlen (v : Bytes) : (st.out v).ivlen = st.ivlen := rfl
@[simp] theorem State.out_nlen (v : Bytes) : (st.out v).nlen = st.nlen := rfl
@[simp] theorem State.out_ctr0 (v : Bytes) : (st.out v).ctr0 = st.ctr0 := rfl
@[simp] theorem State.out_dlen (v : Bytes) : (st.out v).dlen = st.dlen := rfl
@[simp] theorem State.out_olen (v : Bytes) : (st.out v).olen = BitVec.ofNat 32 v.length := rfl
@[simp] theorem State.out_nr (v : Bytes) : (st.out v).nr = st.nr := rfl
@[simp] theorem State.out_cap (v : Bytes) : (st.out v).cap = st.cap := rfl
@[simp] theorem State.out_rkv (v : Bytes) : (st.out v).rkv = st.rkv := rfl
@[simp] theorem State.out_sv (v : Bytes) : (st.out v).sv = st.sv := rfl
@[simp] theorem State.out_xv (v : Bytes) : (st.out v).xv = st.xv := rfl
@[simp] theorem State.out_wv (v : Bytes) : (st.out v).wv = st.wv := rfl
@[simp] theorem State.out_key (v : Bytes) : (st.out v).key = st.key := rfl
@[simp] theorem State.out_iv (v : Bytes) : (st.out v).iv = st.iv := rfl
@[simp] theorem State.out_nonce (v : Bytes) : (st.out v).nonce = st.nonce := rfl
@[simp] theorem State.out_din (v : Bytes) : (st.out v).din = st.din := rfl
@[simp] theorem State.out_dout (v : Bytes) : (st.out v).dout = Memory.ofBytes v := rfl
@[simp] theorem State.out_rk (v : Bytes) : (st.out v).rk = st.rk := rfl
@[simp] theorem State.out_s (v : Bytes) : (st.out v).s = st.s := rfl
@[simp] theorem State.out_x (v : Bytes) : (st.out v).x = st.x := rfl
@[simp] theorem State.out_w (v : Bytes) : (st.out v).w = st.w := rfl
@[simp] theorem State.out_pending (v : Bytes) : (st.out v).pending = st.pending := rfl
@[simp] theorem State.out_response (v : Bytes) : (st.out v).response = st.response := rfl

/-! ### loadSchedule -/

@[simp] theorem State.loadSchedule_err (k : Words 60) (n : BitVec 4) : (st.loadSchedule k n).err = st.err := rfl
@[simp] theorem State.loadSchedule_klen (k : Words 60) (n : BitVec 4) : (st.loadSchedule k n).klen = st.klen := rfl
@[simp] theorem State.loadSchedule_ivlen (k : Words 60) (n : BitVec 4) : (st.loadSchedule k n).ivlen = st.ivlen := rfl
@[simp] theorem State.loadSchedule_nlen (k : Words 60) (n : BitVec 4) : (st.loadSchedule k n).nlen = st.nlen := rfl
@[simp] theorem State.loadSchedule_ctr0 (k : Words 60) (n : BitVec 4) : (st.loadSchedule k n).ctr0 = st.ctr0 := rfl
@[simp] theorem State.loadSchedule_dlen (k : Words 60) (n : BitVec 4) : (st.loadSchedule k n).dlen = st.dlen := rfl
@[simp] theorem State.loadSchedule_olen (k : Words 60) (n : BitVec 4) : (st.loadSchedule k n).olen = st.olen := rfl
@[simp] theorem State.loadSchedule_nr (k : Words 60) (n : BitVec 4) : (st.loadSchedule k n).nr = n := rfl
@[simp] theorem State.loadSchedule_cap (k : Words 60) (n : BitVec 4) : (st.loadSchedule k n).cap = st.cap := rfl
@[simp] theorem State.loadSchedule_rkv (k : Words 60) (n : BitVec 4) : (st.loadSchedule k n).rkv = true := rfl
@[simp] theorem State.loadSchedule_sv (k : Words 60) (n : BitVec 4) : (st.loadSchedule k n).sv = st.sv := rfl
@[simp] theorem State.loadSchedule_xv (k : Words 60) (n : BitVec 4) : (st.loadSchedule k n).xv = st.xv := rfl
@[simp] theorem State.loadSchedule_wv (k : Words 60) (n : BitVec 4) : (st.loadSchedule k n).wv = st.wv := rfl
@[simp] theorem State.loadSchedule_key (k : Words 60) (n : BitVec 4) : (st.loadSchedule k n).key = st.key := rfl
@[simp] theorem State.loadSchedule_iv (k : Words 60) (n : BitVec 4) : (st.loadSchedule k n).iv = st.iv := rfl
@[simp] theorem State.loadSchedule_nonce (k : Words 60) (n : BitVec 4) : (st.loadSchedule k n).nonce = st.nonce := rfl
@[simp] theorem State.loadSchedule_din (k : Words 60) (n : BitVec 4) : (st.loadSchedule k n).din = st.din := rfl
@[simp] theorem State.loadSchedule_dout (k : Words 60) (n : BitVec 4) : (st.loadSchedule k n).dout = st.dout := rfl
@[simp] theorem State.loadSchedule_rk (k : Words 60) (n : BitVec 4) : (st.loadSchedule k n).rk = k := rfl
@[simp] theorem State.loadSchedule_s (k : Words 60) (n : BitVec 4) : (st.loadSchedule k n).s = st.s := rfl
@[simp] theorem State.loadSchedule_x (k : Words 60) (n : BitVec 4) : (st.loadSchedule k n).x = st.x := rfl
@[simp] theorem State.loadSchedule_w (k : Words 60) (n : BitVec 4) : (st.loadSchedule k n).w = st.w := rfl
@[simp] theorem State.loadSchedule_pending (k : Words 60) (n : BitVec 4) : (st.loadSchedule k n).pending = st.pending := rfl
@[simp] theorem State.loadSchedule_response (k : Words 60) (n : BitVec 4) : (st.loadSchedule k n).response = st.response := rfl

/-! ### setS -/

@[simp] theorem State.setS_err (b : Words 4) : (st.setS b).err = st.err := rfl
@[simp] theorem State.setS_klen (b : Words 4) : (st.setS b).klen = st.klen := rfl
@[simp] theorem State.setS_ivlen (b : Words 4) : (st.setS b).ivlen = st.ivlen := rfl
@[simp] theorem State.setS_nlen (b : Words 4) : (st.setS b).nlen = st.nlen := rfl
@[simp] theorem State.setS_ctr0 (b : Words 4) : (st.setS b).ctr0 = st.ctr0 := rfl
@[simp] theorem State.setS_dlen (b : Words 4) : (st.setS b).dlen = st.dlen := rfl
@[simp] theorem State.setS_olen (b : Words 4) : (st.setS b).olen = st.olen := rfl
@[simp] theorem State.setS_nr (b : Words 4) : (st.setS b).nr = st.nr := rfl
@[simp] theorem State.setS_cap (b : Words 4) : (st.setS b).cap = st.cap := rfl
@[simp] theorem State.setS_rkv (b : Words 4) : (st.setS b).rkv = st.rkv := rfl
@[simp] theorem State.setS_sv (b : Words 4) : (st.setS b).sv = st.sv := rfl
@[simp] theorem State.setS_xv (b : Words 4) : (st.setS b).xv = st.xv := rfl
@[simp] theorem State.setS_wv (b : Words 4) : (st.setS b).wv = st.wv := rfl
@[simp] theorem State.setS_key (b : Words 4) : (st.setS b).key = st.key := rfl
@[simp] theorem State.setS_iv (b : Words 4) : (st.setS b).iv = st.iv := rfl
@[simp] theorem State.setS_nonce (b : Words 4) : (st.setS b).nonce = st.nonce := rfl
@[simp] theorem State.setS_din (b : Words 4) : (st.setS b).din = st.din := rfl
@[simp] theorem State.setS_dout (b : Words 4) : (st.setS b).dout = st.dout := rfl
@[simp] theorem State.setS_rk (b : Words 4) : (st.setS b).rk = st.rk := rfl
@[simp] theorem State.setS_s (b : Words 4) : (st.setS b).s = b := rfl
@[simp] theorem State.setS_x (b : Words 4) : (st.setS b).x = st.x := rfl
@[simp] theorem State.setS_w (b : Words 4) : (st.setS b).w = st.w := rfl
@[simp] theorem State.setS_pending (b : Words 4) : (st.setS b).pending = st.pending := rfl
@[simp] theorem State.setS_response (b : Words 4) : (st.setS b).response = st.response := rfl

/-! ### loadS -/

@[simp] theorem State.loadS_err (b : Words 4) : (st.loadS b).err = st.err := rfl
@[simp] theorem State.loadS_klen (b : Words 4) : (st.loadS b).klen = st.klen := rfl
@[simp] theorem State.loadS_ivlen (b : Words 4) : (st.loadS b).ivlen = st.ivlen := rfl
@[simp] theorem State.loadS_nlen (b : Words 4) : (st.loadS b).nlen = st.nlen := rfl
@[simp] theorem State.loadS_ctr0 (b : Words 4) : (st.loadS b).ctr0 = st.ctr0 := rfl
@[simp] theorem State.loadS_dlen (b : Words 4) : (st.loadS b).dlen = st.dlen := rfl
@[simp] theorem State.loadS_olen (b : Words 4) : (st.loadS b).olen = st.olen := rfl
@[simp] theorem State.loadS_nr (b : Words 4) : (st.loadS b).nr = st.nr := rfl
@[simp] theorem State.loadS_cap (b : Words 4) : (st.loadS b).cap = st.cap := rfl
@[simp] theorem State.loadS_rkv (b : Words 4) : (st.loadS b).rkv = st.rkv := rfl
@[simp] theorem State.loadS_sv (b : Words 4) : (st.loadS b).sv = true := rfl
@[simp] theorem State.loadS_xv (b : Words 4) : (st.loadS b).xv = st.xv := rfl
@[simp] theorem State.loadS_wv (b : Words 4) : (st.loadS b).wv = st.wv := rfl
@[simp] theorem State.loadS_key (b : Words 4) : (st.loadS b).key = st.key := rfl
@[simp] theorem State.loadS_iv (b : Words 4) : (st.loadS b).iv = st.iv := rfl
@[simp] theorem State.loadS_nonce (b : Words 4) : (st.loadS b).nonce = st.nonce := rfl
@[simp] theorem State.loadS_din (b : Words 4) : (st.loadS b).din = st.din := rfl
@[simp] theorem State.loadS_dout (b : Words 4) : (st.loadS b).dout = st.dout := rfl
@[simp] theorem State.loadS_rk (b : Words 4) : (st.loadS b).rk = st.rk := rfl
@[simp] theorem State.loadS_s (b : Words 4) : (st.loadS b).s = b := rfl
@[simp] theorem State.loadS_x (b : Words 4) : (st.loadS b).x = st.x := rfl
@[simp] theorem State.loadS_w (b : Words 4) : (st.loadS b).w = st.w := rfl
@[simp] theorem State.loadS_pending (b : Words 4) : (st.loadS b).pending = st.pending := rfl
@[simp] theorem State.loadS_response (b : Words 4) : (st.loadS b).response = st.response := rfl

/-! ### setX -/

@[simp] theorem State.setX_err (v : Words 16) : (st.setX v).err = st.err := rfl
@[simp] theorem State.setX_klen (v : Words 16) : (st.setX v).klen = st.klen := rfl
@[simp] theorem State.setX_ivlen (v : Words 16) : (st.setX v).ivlen = st.ivlen := rfl
@[simp] theorem State.setX_nlen (v : Words 16) : (st.setX v).nlen = st.nlen := rfl
@[simp] theorem State.setX_ctr0 (v : Words 16) : (st.setX v).ctr0 = st.ctr0 := rfl
@[simp] theorem State.setX_dlen (v : Words 16) : (st.setX v).dlen = st.dlen := rfl
@[simp] theorem State.setX_olen (v : Words 16) : (st.setX v).olen = st.olen := rfl
@[simp] theorem State.setX_nr (v : Words 16) : (st.setX v).nr = st.nr := rfl
@[simp] theorem State.setX_cap (v : Words 16) : (st.setX v).cap = st.cap := rfl
@[simp] theorem State.setX_rkv (v : Words 16) : (st.setX v).rkv = st.rkv := rfl
@[simp] theorem State.setX_sv (v : Words 16) : (st.setX v).sv = st.sv := rfl
@[simp] theorem State.setX_xv (v : Words 16) : (st.setX v).xv = st.xv := rfl
@[simp] theorem State.setX_wv (v : Words 16) : (st.setX v).wv = st.wv := rfl
@[simp] theorem State.setX_key (v : Words 16) : (st.setX v).key = st.key := rfl
@[simp] theorem State.setX_iv (v : Words 16) : (st.setX v).iv = st.iv := rfl
@[simp] theorem State.setX_nonce (v : Words 16) : (st.setX v).nonce = st.nonce := rfl
@[simp] theorem State.setX_din (v : Words 16) : (st.setX v).din = st.din := rfl
@[simp] theorem State.setX_dout (v : Words 16) : (st.setX v).dout = st.dout := rfl
@[simp] theorem State.setX_rk (v : Words 16) : (st.setX v).rk = st.rk := rfl
@[simp] theorem State.setX_s (v : Words 16) : (st.setX v).s = st.s := rfl
@[simp] theorem State.setX_x (v : Words 16) : (st.setX v).x = v := rfl
@[simp] theorem State.setX_w (v : Words 16) : (st.setX v).w = st.w := rfl
@[simp] theorem State.setX_pending (v : Words 16) : (st.setX v).pending = st.pending := rfl
@[simp] theorem State.setX_response (v : Words 16) : (st.setX v).response = st.response := rfl

/-! ### loadX -/

@[simp] theorem State.loadX_err (v : Words 16) : (st.loadX v).err = st.err := rfl
@[simp] theorem State.loadX_klen (v : Words 16) : (st.loadX v).klen = st.klen := rfl
@[simp] theorem State.loadX_ivlen (v : Words 16) : (st.loadX v).ivlen = st.ivlen := rfl
@[simp] theorem State.loadX_nlen (v : Words 16) : (st.loadX v).nlen = st.nlen := rfl
@[simp] theorem State.loadX_ctr0 (v : Words 16) : (st.loadX v).ctr0 = st.ctr0 := rfl
@[simp] theorem State.loadX_dlen (v : Words 16) : (st.loadX v).dlen = st.dlen := rfl
@[simp] theorem State.loadX_olen (v : Words 16) : (st.loadX v).olen = st.olen := rfl
@[simp] theorem State.loadX_nr (v : Words 16) : (st.loadX v).nr = st.nr := rfl
@[simp] theorem State.loadX_cap (v : Words 16) : (st.loadX v).cap = st.cap := rfl
@[simp] theorem State.loadX_rkv (v : Words 16) : (st.loadX v).rkv = st.rkv := rfl
@[simp] theorem State.loadX_sv (v : Words 16) : (st.loadX v).sv = st.sv := rfl
@[simp] theorem State.loadX_xv (v : Words 16) : (st.loadX v).xv = true := rfl
@[simp] theorem State.loadX_wv (v : Words 16) : (st.loadX v).wv = st.wv := rfl
@[simp] theorem State.loadX_key (v : Words 16) : (st.loadX v).key = st.key := rfl
@[simp] theorem State.loadX_iv (v : Words 16) : (st.loadX v).iv = st.iv := rfl
@[simp] theorem State.loadX_nonce (v : Words 16) : (st.loadX v).nonce = st.nonce := rfl
@[simp] theorem State.loadX_din (v : Words 16) : (st.loadX v).din = st.din := rfl
@[simp] theorem State.loadX_dout (v : Words 16) : (st.loadX v).dout = st.dout := rfl
@[simp] theorem State.loadX_rk (v : Words 16) : (st.loadX v).rk = st.rk := rfl
@[simp] theorem State.loadX_s (v : Words 16) : (st.loadX v).s = st.s := rfl
@[simp] theorem State.loadX_x (v : Words 16) : (st.loadX v).x = v := rfl
@[simp] theorem State.loadX_w (v : Words 16) : (st.loadX v).w = st.w := rfl
@[simp] theorem State.loadX_pending (v : Words 16) : (st.loadX v).pending = st.pending := rfl
@[simp] theorem State.loadX_response (v : Words 16) : (st.loadX v).response = st.response := rfl

/-! ### setW -/

@[simp] theorem State.setW_err (v : Words 16) : (st.setW v).err = st.err := rfl
@[simp] theorem State.setW_klen (v : Words 16) : (st.setW v).klen = st.klen := rfl
@[simp] theorem State.setW_ivlen (v : Words 16) : (st.setW v).ivlen = st.ivlen := rfl
@[simp] theorem State.setW_nlen (v : Words 16) : (st.setW v).nlen = st.nlen := rfl
@[simp] theorem State.setW_ctr0 (v : Words 16) : (st.setW v).ctr0 = st.ctr0 := rfl
@[simp] theorem State.setW_dlen (v : Words 16) : (st.setW v).dlen = st.dlen := rfl
@[simp] theorem State.setW_olen (v : Words 16) : (st.setW v).olen = st.olen := rfl
@[simp] theorem State.setW_nr (v : Words 16) : (st.setW v).nr = st.nr := rfl
@[simp] theorem State.setW_cap (v : Words 16) : (st.setW v).cap = st.cap := rfl
@[simp] theorem State.setW_rkv (v : Words 16) : (st.setW v).rkv = st.rkv := rfl
@[simp] theorem State.setW_sv (v : Words 16) : (st.setW v).sv = st.sv := rfl
@[simp] theorem State.setW_xv (v : Words 16) : (st.setW v).xv = st.xv := rfl
@[simp] theorem State.setW_wv (v : Words 16) : (st.setW v).wv = st.wv := rfl
@[simp] theorem State.setW_key (v : Words 16) : (st.setW v).key = st.key := rfl
@[simp] theorem State.setW_iv (v : Words 16) : (st.setW v).iv = st.iv := rfl
@[simp] theorem State.setW_nonce (v : Words 16) : (st.setW v).nonce = st.nonce := rfl
@[simp] theorem State.setW_din (v : Words 16) : (st.setW v).din = st.din := rfl
@[simp] theorem State.setW_dout (v : Words 16) : (st.setW v).dout = st.dout := rfl
@[simp] theorem State.setW_rk (v : Words 16) : (st.setW v).rk = st.rk := rfl
@[simp] theorem State.setW_s (v : Words 16) : (st.setW v).s = st.s := rfl
@[simp] theorem State.setW_x (v : Words 16) : (st.setW v).x = st.x := rfl
@[simp] theorem State.setW_w (v : Words 16) : (st.setW v).w = v := rfl
@[simp] theorem State.setW_pending (v : Words 16) : (st.setW v).pending = st.pending := rfl
@[simp] theorem State.setW_response (v : Words 16) : (st.setW v).response = st.response := rfl

/-! ### loadW -/

@[simp] theorem State.loadW_err (v : Words 16) : (st.loadW v).err = st.err := rfl
@[simp] theorem State.loadW_klen (v : Words 16) : (st.loadW v).klen = st.klen := rfl
@[simp] theorem State.loadW_ivlen (v : Words 16) : (st.loadW v).ivlen = st.ivlen := rfl
@[simp] theorem State.loadW_nlen (v : Words 16) : (st.loadW v).nlen = st.nlen := rfl
@[simp] theorem State.loadW_ctr0 (v : Words 16) : (st.loadW v).ctr0 = st.ctr0 := rfl
@[simp] theorem State.loadW_dlen (v : Words 16) : (st.loadW v).dlen = st.dlen := rfl
@[simp] theorem State.loadW_olen (v : Words 16) : (st.loadW v).olen = st.olen := rfl
@[simp] theorem State.loadW_nr (v : Words 16) : (st.loadW v).nr = st.nr := rfl
@[simp] theorem State.loadW_cap (v : Words 16) : (st.loadW v).cap = st.cap := rfl
@[simp] theorem State.loadW_rkv (v : Words 16) : (st.loadW v).rkv = st.rkv := rfl
@[simp] theorem State.loadW_sv (v : Words 16) : (st.loadW v).sv = st.sv := rfl
@[simp] theorem State.loadW_xv (v : Words 16) : (st.loadW v).xv = st.xv := rfl
@[simp] theorem State.loadW_wv (v : Words 16) : (st.loadW v).wv = true := rfl
@[simp] theorem State.loadW_key (v : Words 16) : (st.loadW v).key = st.key := rfl
@[simp] theorem State.loadW_iv (v : Words 16) : (st.loadW v).iv = st.iv := rfl
@[simp] theorem State.loadW_nonce (v : Words 16) : (st.loadW v).nonce = st.nonce := rfl
@[simp] theorem State.loadW_din (v : Words 16) : (st.loadW v).din = st.din := rfl
@[simp] theorem State.loadW_dout (v : Words 16) : (st.loadW v).dout = st.dout := rfl
@[simp] theorem State.loadW_rk (v : Words 16) : (st.loadW v).rk = st.rk := rfl
@[simp] theorem State.loadW_s (v : Words 16) : (st.loadW v).s = st.s := rfl
@[simp] theorem State.loadW_x (v : Words 16) : (st.loadW v).x = st.x := rfl
@[simp] theorem State.loadW_w (v : Words 16) : (st.loadW v).w = v := rfl
@[simp] theorem State.loadW_pending (v : Words 16) : (st.loadW v).pending = st.pending := rfl
@[simp] theorem State.loadW_response (v : Words 16) : (st.loadW v).response = st.response := rfl

/-! ### respond -/

@[simp] theorem State.respond_err (a : Option HostAnswer) : (st.respond a).err = st.err := rfl
@[simp] theorem State.respond_klen (a : Option HostAnswer) : (st.respond a).klen = st.klen := rfl
@[simp] theorem State.respond_ivlen (a : Option HostAnswer) : (st.respond a).ivlen = st.ivlen := rfl
@[simp] theorem State.respond_nlen (a : Option HostAnswer) : (st.respond a).nlen = st.nlen := rfl
@[simp] theorem State.respond_ctr0 (a : Option HostAnswer) : (st.respond a).ctr0 = st.ctr0 := rfl
@[simp] theorem State.respond_dlen (a : Option HostAnswer) : (st.respond a).dlen = st.dlen := rfl
@[simp] theorem State.respond_olen (a : Option HostAnswer) : (st.respond a).olen = st.olen := rfl
@[simp] theorem State.respond_nr (a : Option HostAnswer) : (st.respond a).nr = st.nr := rfl
@[simp] theorem State.respond_cap (a : Option HostAnswer) : (st.respond a).cap = st.cap := rfl
@[simp] theorem State.respond_rkv (a : Option HostAnswer) : (st.respond a).rkv = st.rkv := rfl
@[simp] theorem State.respond_sv (a : Option HostAnswer) : (st.respond a).sv = st.sv := rfl
@[simp] theorem State.respond_xv (a : Option HostAnswer) : (st.respond a).xv = st.xv := rfl
@[simp] theorem State.respond_wv (a : Option HostAnswer) : (st.respond a).wv = st.wv := rfl
@[simp] theorem State.respond_key (a : Option HostAnswer) : (st.respond a).key = st.key := rfl
@[simp] theorem State.respond_iv (a : Option HostAnswer) : (st.respond a).iv = st.iv := rfl
@[simp] theorem State.respond_nonce (a : Option HostAnswer) : (st.respond a).nonce = st.nonce := rfl
@[simp] theorem State.respond_din (a : Option HostAnswer) : (st.respond a).din = st.din := rfl
@[simp] theorem State.respond_dout (a : Option HostAnswer) : (st.respond a).dout = st.dout := rfl
@[simp] theorem State.respond_rk (a : Option HostAnswer) : (st.respond a).rk = st.rk := rfl
@[simp] theorem State.respond_s (a : Option HostAnswer) : (st.respond a).s = st.s := rfl
@[simp] theorem State.respond_x (a : Option HostAnswer) : (st.respond a).x = st.x := rfl
@[simp] theorem State.respond_w (a : Option HostAnswer) : (st.respond a).w = st.w := rfl
@[simp] theorem State.respond_pending (a : Option HostAnswer) : (st.respond a).pending = st.pending := rfl
@[simp] theorem State.respond_response (a : Option HostAnswer) : (st.respond a).response = a := rfl

/-! ### resetEngine -/

@[simp] theorem State.resetEngine_err : (st.resetEngine).err = 0#3 := rfl
@[simp] theorem State.resetEngine_klen : (st.resetEngine).klen = 0#32 := rfl
@[simp] theorem State.resetEngine_ivlen : (st.resetEngine).ivlen = 0#32 := rfl
@[simp] theorem State.resetEngine_nlen : (st.resetEngine).nlen = 0#32 := rfl
@[simp] theorem State.resetEngine_ctr0 : (st.resetEngine).ctr0 = 0#32 := rfl
@[simp] theorem State.resetEngine_dlen : (st.resetEngine).dlen = 0#32 := rfl
@[simp] theorem State.resetEngine_olen : (st.resetEngine).olen = 0#32 := rfl
@[simp] theorem State.resetEngine_nr : (st.resetEngine).nr = 0#4 := rfl
@[simp] theorem State.resetEngine_cap : (st.resetEngine).cap = st.cap := rfl
@[simp] theorem State.resetEngine_rkv : (st.resetEngine).rkv = false := rfl
@[simp] theorem State.resetEngine_sv : (st.resetEngine).sv = false := rfl
@[simp] theorem State.resetEngine_xv : (st.resetEngine).xv = false := rfl
@[simp] theorem State.resetEngine_wv : (st.resetEngine).wv = false := rfl
@[simp] theorem State.resetEngine_key : (st.resetEngine).key = [] := rfl
@[simp] theorem State.resetEngine_iv : (st.resetEngine).iv = [] := rfl
@[simp] theorem State.resetEngine_nonce : (st.resetEngine).nonce = [] := rfl
@[simp] theorem State.resetEngine_din : (st.resetEngine).din = [] := rfl
@[simp] theorem State.resetEngine_dout : (st.resetEngine).dout = [] := rfl
@[simp] theorem State.resetEngine_rk : (st.resetEngine).rk = Vector.replicate 60 0#32 := rfl
@[simp] theorem State.resetEngine_s : (st.resetEngine).s = Vector.replicate 4 0#32 := rfl
@[simp] theorem State.resetEngine_x : (st.resetEngine).x = Vector.replicate 16 0#32 := rfl
@[simp] theorem State.resetEngine_w : (st.resetEngine).w = Vector.replicate 16 0#32 := rfl
@[simp] theorem State.resetEngine_pending : (st.resetEngine).pending = st.pending := rfl
@[simp] theorem State.resetEngine_response : (st.resetEngine).response = st.response := rfl

end Sys2Proof.Machine
end

