-- ==== Sys2Proof/Laws/Ops.lean ====
section
/-! SUPPORT. What the shared operations of a command can do: `require`, `attempt`, `raise` and `complete` answer a next state,
and either the rest of the command runs or ERR alone changes. -/
namespace Sys2Proof.Machine

variable (st : State)

theorem require_pos {c : Prop} [Decidable c] (e : ErrorKind) (rest : c → Result) (h : c) :
    require c e st rest = rest h := dif_pos h

theorem require_neg {c : Prop} [Decidable c] (e : ErrorKind) (rest : c → Result) (h : ¬c) :
    require c e st rest = .next (st.setErr e.code) := dif_neg h

/-- A `require` that answers `t` ran the rest of the command, or wrote the code to ERR and nothing else. -/
theorem require_next {c : Prop} [Decidable c] {e : ErrorKind} {rest : c → Result} {t : State}
    (h : require c e st rest = .next t) : (∃ hc : c, rest hc = .next t) ∨ (¬c ∧ t = st.setErr e.code) := by
  by_cases hc : c
  · rw [require_pos st e rest hc] at h; exact .inl ⟨hc, h⟩
  · rw [require_neg st e rest hc] at h; exact .inr ⟨hc, by cases h; rfl⟩

@[simp] theorem attempt_ok {α : Type} (a : α) (rest : α → Result) : attempt (.ok a) st rest = rest a := rfl

@[simp] theorem attempt_error {α : Type} (e : ErrorKind) (rest : α → Result) :
    attempt (.error e) st rest = .next (st.setErr e.code) := rfl

/-- An `attempt` that answers `t` ran the rest on the function's result, or wrote its error to ERR and nothing else. -/
theorem attempt_next {α : Type} {r : Except ErrorKind α} {rest : α → Result} {t : State}
    (h : attempt r st rest = .next t) :
    (∃ a, r = .ok a ∧ rest a = .next t) ∨ (∃ e, r = .error e ∧ t = st.setErr e.code) := by
  cases r with
  | ok a => exact .inl ⟨a, rfl, h⟩
  | error e => exact .inr ⟨e, rfl, by cases h; rfl⟩

/-- `complete` answers the state with ERR zero. -/
theorem complete_next {t : State} (h : complete st = .next t) : t = st.setErr 0#3 := by cases h; rfl

/-- The codes of R290 are 1 to 6. -/
theorem ErrorKind.code_ne_zero (e : ErrorKind) : e.code ≠ 0#3 := by cases e <;> decide

theorem ErrorKind.code_le_six (e : ErrorKind) : e.code ≤ 6#3 := by cases e <;> decide

/-- `Out` leaves DOUT in canonical form, with the sequence from 0 on and zero bytes after it (R67). -/
theorem State.out_reads (v : Bytes) : (st.out v).dout.wf ∧ ∀ i, (st.out v).dout.read i = v.getD i 0#8 :=
  ⟨Memory.wf_ofBytes v, Memory.read_ofBytes v⟩

end Sys2Proof.Machine
end

