-- ==== Sys2Proof/Laws/PerInstr.lean ====
section
/-! SUPPORT. The family CommandWord: what every command's word looks like (30_encoding.md R91 to R95). -/
namespace Sys2Proof.Laws

/-- Bits [31:24] of the command's word are zero and bits [7:0] are its opcode (R91). -/
def CommandWord.Statement (i : Instr) : Prop :=
  (encode i).extractLsb' 24 8 = 0#8 ∧ (encode i).extractLsb' 0 8 = opcode i

theorem CommandWord.nop : CommandWord.Statement .nop := by unfold CommandWord.Statement; decide
theorem CommandWord.rst : CommandWord.Statement .rst := by unfold CommandWord.Statement; decide
theorem CommandWord.kexp : CommandWord.Statement .kexp := by unfold CommandWord.Statement; decide
theorem CommandWord.strk (r : BitVec 4) : CommandWord.Statement (.strk r) := by
  revert r; unfold CommandWord.Statement; decide
theorem CommandWord.lds : CommandWord.Statement .lds := by unfold CommandWord.Statement; decide
theorem CommandWord.sts : CommandWord.Statement .sts := by unfold CommandWord.Statement; decide
theorem CommandWord.ark (r : BitVec 4) : CommandWord.Statement (.ark r) := by
  revert r; unfold CommandWord.Statement; decide
theorem CommandWord.subb : CommandWord.Statement .subb := by unfold CommandWord.Statement; decide
theorem CommandWord.isubb : CommandWord.Statement .isubb := by unfold CommandWord.Statement; decide
theorem CommandWord.shrow : CommandWord.Statement .shrow := by unfold CommandWord.Statement; decide
theorem CommandWord.ishrow : CommandWord.Statement .ishrow := by unfold CommandWord.Statement; decide
theorem CommandWord.mixc : CommandWord.Statement .mixc := by unfold CommandWord.Statement; decide
theorem CommandWord.imixc : CommandWord.Statement .imixc := by unfold CommandWord.Statement; decide
theorem CommandWord.encb : CommandWord.Statement .encb := by unfold CommandWord.Statement; decide
theorem CommandWord.decb : CommandWord.Statement .decb := by unfold CommandWord.Statement; decide
theorem CommandWord.cbce : CommandWord.Statement .cbce := by unfold CommandWord.Statement; decide
theorem CommandWord.cbcd : CommandWord.Statement .cbcd := by unfold CommandWord.Statement; decide
theorem CommandWord.pad : CommandWord.Statement .pad := by unfold CommandWord.Statement; decide
theorem CommandWord.unpad : CommandWord.Statement .unpad := by unfold CommandWord.Statement; decide
theorem CommandWord.sinit : CommandWord.Statement .sinit := by unfold CommandWord.Statement; decide
theorem CommandWord.sinc : CommandWord.Statement .sinc := by unfold CommandWord.Statement; decide
theorem CommandWord.ldw : CommandWord.Statement .ldw := by unfold CommandWord.Statement; decide
theorem CommandWord.qr (a b c d : BitVec 4) : CommandWord.Statement (.qr a b c d) := by
  refine ⟨?_, ?_⟩ <;>
    (refine BitVec.eq_of_getLsbD_eq fun i hi => ?_
     interval_cases i <;> simp [encode, opcode])
theorem CommandWord.drnd : CommandWord.Statement .drnd := by unfold CommandWord.Statement; decide
theorem CommandWord.ffwd : CommandWord.Statement .ffwd := by unfold CommandWord.Statement; decide
theorem CommandWord.serw : CommandWord.Statement .serw := by unfold CommandWord.Statement; decide
theorem CommandWord.sblk : CommandWord.Statement .sblk := by unfold CommandWord.Statement; decide
theorem CommandWord.sapply : CommandWord.Statement .sapply := by unfold CommandWord.Statement; decide

end Sys2Proof.Laws
end

