-- ==== Sys2Proof/Tests/Slice0.lean ====
section
/-! SUPPORT. The model's own tests: ill-formed commands, the decoding of words written out from the encoding, single steps with
results from spec/95_test_vectors.md, and for every statement with hypotheses a state and operands that meet them. -/
namespace Sys2Proof.Tests
open Sys2Proof.Machine

/-! ### Helpers -/

/-- The state a result goes on with. -/
def nextOf (r : Result) : Option State :=
  match r with
  | .next t => some t
  | .fault _ => none
  | .refused _ => none

/-- What `f` reads in the state a result goes on with. -/
def after {α : Type} (r : Result) (f : State → α) : Option α := (nextOf r).map f

/-- The reset state of an engine with DCAP = 4096, as the vectors assume. -/
def base : State := State.resetWith 4096#32

/-- The reset state of the smallest engine the spec allows. -/
def small : State := State.resetWith 64#32

/-- The smallest engine with host actions to come. -/
def host (p : List HostAction) : State := { small with pending := p }

/-- A byte string of `n` bytes as the vectors print it, first byte first. -/
def hex (n v : Nat) : Bytes := (List.range n).map fun i => BitVec.ofNat 8 (v / 256 ^ (n - 1 - i))

/-- The bytes 00 01 02 … of the vectors' keys. -/
def counting (n : Nat) : Memory := Memory.ofBytes ((List.range n).map (BitVec.ofNat 8))

/-- The host has loaded the data `v` into DIN and DLEN. -/
def withData (st : State) (v : Bytes) : State :=
  { st with din := Memory.ofBytes v, dlen := BitVec.ofNat 32 v.length }

/-- Words of a schedule from index 0 on, zeros above. -/
def scheduleOf (w : List Word) : Words 60 := Vector.ofFn fun i => w.getD i 0#32

/-- The schedule of V10. -/
def v10 : List Word :=
  [0x00010203#32, 0x04050607#32, 0x08090a0b#32, 0x0c0d0e0f#32]
  ++ [0xd6aa74fd#32, 0xd2af72fa#32, 0xdaa678f1#32, 0xd6ab76fe#32]
  ++ [0xb692cf0b#32, 0x643dbdf1#32, 0xbe9bc500#32, 0x6830b3fe#32]
  ++ [0xb6ff744e#32, 0xd2c2c9bf#32, 0x6c590cbf#32, 0x0469bf41#32]
  ++ [0x47f7f7bc#32, 0x95353e03#32, 0xf96c32bc#32, 0xfd058dfd#32]
  ++ [0x3caaa3e8#32, 0xa99f9deb#32, 0x50f3af57#32, 0xadf622aa#32]
  ++ [0x5e390f7d#32, 0xf7a69296#32, 0xa7553dc1#32, 0x0aa31f6b#32]
  ++ [0x14f9701a#32, 0xe35fe28c#32, 0x440adf4d#32, 0x4ea9c026#32]
  ++ [0x47438735#32, 0xa41c65b9#32, 0xe016baf4#32, 0xaebf7ad2#32]
  ++ [0x549932d1#32, 0xf0855768#32, 0x1093ed9c#32, 0xbe2c974e#32]
  ++ [0x13111d7f#32, 0xe3944a17#32, 0xf307a78b#32, 0x4d2b30c5#32]

/-- The engine after KEXP with the key of V10. -/
def keyed : State := { base with rkv := true, nr := 10#4, rk := scheduleOf v10 }

/-- The plaintext block of V1. -/
def plain : Bytes := (hex 16 0x00112233445566778899aabbccddeeff)

/-- The stream state of V2. -/
def v2 : Words 16 :=
  #v[0x61707865#32, 0x3320646e#32, 0x79622d32#32, 0x6b206574#32,
     0x03020100#32, 0x07060504#32, 0x0b0a0908#32, 0x0f0e0d0c#32,
     0x13121110#32, 0x17161514#32, 0x1b1a1918#32, 0x1f1e1d1c#32,
     0x00000001#32, 0x09000000#32, 0x4a000000#32, 0x00000000#32]

/-- The engine with a block in the step register and the schedule of V10. -/
def stepping (s : Words 4) : State := { keyed with s := s, sv := true }

/-- The block of V1 in the step register. -/
def loaded : State := stepping #v[0x00112233#32, 0x44556677#32, 0x8899aabb#32, 0xccddeeff#32]

/-- The engine after SINIT with the inputs of V2, and after LDW. -/
def streaming : State := { base with x := v2, xv := true, w := v2, wv := true }

/-! ### Well-formedness -/

/-- R93: r = 15 always fails. -/
theorem test_wf_strk : Instr.wellFormed (.strk 15) = false := by decide

/-- R93: r = 15 always fails. -/
theorem test_wf_ark : Instr.wellFormed (.ark 15) = false := by decide

/-- R244: each of the six equalities of indices. -/
theorem test_wf_qr : ∀ i ∈ [Instr.qr 1 1 2 3, .qr 1 2 1 3, .qr 1 2 3 1, .qr 0 1 1 2, .qr 0 1 2 1, .qr 0 1 2 2],
    i.wellFormed = false := by decide

/-- The largest round index and the QR of R253 are well formed. -/
theorem test_wf_ok : ∀ i ∈ [Instr.strk 14, .ark 0, .qr 3 4 9 14, .kexp], i.wellFormed = true := by decide

/-! ### Decoding: words written bit by bit from R91 to R96 -/

/-- 48_system.md -/
theorem test_decode_system :
    decode 0b00000000_0000000000000000_00000000#32 = .ok .nop
      ∧ decode 0b00000000_0000000000000000_00000001#32 = .ok .rst := by
  decide

/-- 41_key_schedule.md; STRK 10 is 0x00000a11 (P1). -/
theorem test_decode_key_schedule :
    decode 0b00000000_0000000000000000_00010000#32 = .ok .kexp
      ∧ decode 0b00000000_000000000000_1010_00010001#32 = .ok (.strk 10)
      ∧ decode 0b00000000_000000000000_1111_00010001#32 = .ok (.strk 15) := by
  decide

/-- 42_block_transform.md; ARK 14 is 0x00000e14 (V40). -/
theorem test_decode_block_steps :
    decode 0b00000000_0000000000000000_00010010#32 = .ok .lds
      ∧ decode 0b00000000_0000000000000000_00010011#32 = .ok .sts
      ∧ decode 0b00000000_0000000000000000_00010101#32 = .ok .subb
      ∧ decode 0b00000000_0000000000000000_00010110#32 = .ok .isubb
      ∧ decode 0b00000000_0000000000000000_00010111#32 = .ok .shrow
      ∧ decode 0b00000000_0000000000000000_00011000#32 = .ok .ishrow
      ∧ decode 0b00000000_0000000000000000_00011001#32 = .ok .mixc
      ∧ decode 0b00000000_0000000000000000_00011010#32 = .ok .imixc
      ∧ decode 0b00000000_000000000000_1110_00010100#32 = .ok (.ark 14) := by
  decide

/-- 42_block_transform.md -/
theorem test_decode_block :
    decode 0b00000000_0000000000000000_00011011#32 = .ok .encb
      ∧ decode 0b00000000_0000000000000000_00011100#32 = .ok .decb := by
  decide

/-- 43_cbc_mode.md, 44_padding.md -/
theorem test_decode_cbc_and_padding :
    decode 0b00000000_0000000000000000_00100000#32 = .ok .cbce
      ∧ decode 0b00000000_0000000000000000_00100001#32 = .ok .cbcd
      ∧ decode 0b00000000_0000000000000000_00101000#32 = .ok .pad
      ∧ decode 0b00000000_0000000000000000_00101001#32 = .ok .unpad := by
  decide

/-- 45_stream_state.md -/
theorem test_decode_stream_state :
    decode 0b00000000_0000000000000000_00110000#32 = .ok .sinit
      ∧ decode 0b00000000_0000000000000000_00110001#32 = .ok .sinc := by
  decide

/-- 46_round_function.md; QR 0,4,8,12 is 0x00c84039, QR 15,14,13,12 is 0x00cdef39 (V32). -/
theorem test_decode_round_function :
    decode 0b00000000_0000000000000000_00111000#32 = .ok .ldw
      ∧ decode 0b00000000_0000000000000000_00111010#32 = .ok .drnd
      ∧ decode 0b00000000_0000000000000000_00111011#32 = .ok .ffwd
      ∧ decode 0b00000000_0000000000000000_00111100#32 = .ok .serw
      ∧ decode 0b00000000_0000000000000000_00111101#32 = .ok .sblk
      ∧ decode 0b00000000_1100_1000_0100_0000_00111001#32 = .ok (.qr 0 4 8 12)
      ∧ decode 0b00000000_1100_1101_1110_1111_00111001#32 = .ok (.qr 15 14 13 12) := by
  decide

/-- 47_stream_combiner.md -/
theorem test_decode_combiner :
    decode 0b00000000_0000000000000000_01000000#32 = .ok .sapply := by
  decide

/-- The illegal words of V40. -/
def illegalWords : List Word :=
  [0x00000002#32, 0x0000000f#32, 0x0000001d#32, 0x00000022#32, 0x0000002a#32, 0x00000032#32, 0x0000003e#32]
  ++ [0x00000041#32, 0x000000ff#32, 0x00000100#32, 0x00000110#32, 0x00010020#32, 0x00001011#32, 0x00001014#32]
  ++ [0x00100014#32, 0x01000000#32, 0x01000010#32, 0x80000039#32, 0x01c84039#32, 0xffffffff#32]

/-- V40: none of them is a command. -/
theorem test_illegal_words : illegalWords.map (fun w => (decodeTableWord 32 w.toNat).isNone) = List.replicate 20 true := by
  decide +kernel

/-- V40: an illegal word gives ERR 6 and changes nothing else. -/
theorem test_illegal_word_runs : runWord 0x01c84039#32 loaded = .next { loaded with err := 6#3 } := rfl

/-- R97: the rejections have the names of its checks, in its order. -/
theorem test_reject_names :
    (decode 0x01000002#32 = .error .zeroFieldSet ∧ decode 0x00000102#32 = .error .reservedOpcode)
      ∧ decode 0x00010020#32 = .error .argumentSet ∧ decode 0x00001011#32 = .error .roundFieldSet := by
  refine ⟨⟨?_, ?_⟩, ?_, ?_⟩ <;> rfl

/-- The opcode table's bit numbers are the word's own: QR 2,7,8,13 (V40). -/
theorem test_table_word : decodeTableWord 32 0x00d87239 = some (.qr 2 7 8 13) := by decide

/-! ### One step of each command -/

/-- R280: ERR 5 becomes 0. -/
theorem test_nop :
    after (exec .nop { loaded with err := 5#3 }) (fun t => (t.err, t.s == loaded.s, t.rkv)) = some (0#3, true, true) := by
  decide

/-- R281: everything but CAP is gone. -/
theorem test_rst :
    exec .rst { loaded with klen := 16#32, key := counting 32, din := counting 9, dout := counting 7, olen := 7#32, err := 6#3 }
      = .next base := by
  rfl

/-- V10: the schedule of the key 00 01 .. 0f. -/
theorem test_kexp :
    after (exec .kexp { base with klen := 16#32, key := counting 16 }) (fun t => (t.rk, t.nr, t.rkv, t.err))
      = some (scheduleOf v10, 10#4, true, 0#3) := by
  decide +kernel

/-- V14 (d): KLEN = 17 leaves the schedule. -/
theorem test_kexp_fails :
    after (exec .kexp { keyed with klen := 17#32 }) (fun t => (t.err, t.rk == keyed.rk, t.nr, t.rkv))
      = some (1#3, true, 10#4, true) := by
  decide

/-- P1: STRK 10. -/
theorem test_strk :
    after (exec (.strk 10) keyed) (fun t => (t.dout, t.olen))
      = some (Memory.ofBytes (hex 16 0x13111d7fe3944a17f307a78b4d2b30c5), 16#32) := by
  decide

/-- V10: STRK 11 fails and leaves DOUT. -/
theorem test_strk_fails :
    after (exec (.strk 11) { keyed with dout := counting 3, olen := 3#32 }) (fun t => (t.err, t.dout, t.olen))
      = some (6#3, counting 3, 3#32) := by
  decide

/-- R151. -/
theorem test_lds :
    after (exec .lds (withData base plain)) (fun t => (t.s, t.sv))
      = some (#v[0x00112233#32, 0x44556677#32, 0x8899aabb#32, 0xccddeeff#32], true) := by
  decide

/-- V17: DLEN = 15 gives 3, above DCAP 6; S and SV stay. -/
theorem test_lds_fails :
    (after (exec .lds { base with dlen := 15#32 }) (fun t => (t.err, t.sv)) = some (3#3, false))
      ∧ after (exec .lds { base with dlen := 4097#32 }) (fun t => (t.err, t.sv)) = some (6#3, false) := by
  decide

/-- R152. -/
theorem test_sts :
    after (exec .sts loaded) (fun t => (t.dout, t.olen, t.sv)) = some (Memory.ofBytes plain, 16#32, true) := by
  decide

/-- V15: ARK 10. -/
theorem test_ark :
    after (exec (.ark 10) loaded) State.s = some #v[0x13003f4c#32, 0xa7c12c60#32, 0x7b9e0d30#32, 0x81f6de3a#32] := by
  decide

/-- V40: ARK 15 decodes and fails. -/
theorem test_ark_fails :
    after (exec (.ark 15) loaded) (fun t => (t.err, t.s == loaded.s)) = some (6#3, true) := by
  decide

/-- V15. -/
theorem test_subb :
    after (exec .subb loaded) State.s = some #v[0x638293c3#32, 0x1bfc33f5#32, 0xc4eeacea#32, 0x4bc12816#32] := by
  decide

/-- V15. -/
theorem test_isubb :
    after (exec .isubb loaded) State.s = some #v[0x52e39466#32, 0x86edd302#32, 0x97f962fe#32, 0x27c9997d#32] := by
  decide

/-- V15. -/
theorem test_shrow :
    after (exec .shrow loaded) State.s = some #v[0x0055aaff#32, 0x4499ee33#32, 0x88dd2277#32, 0xcc1166bb#32] := by
  decide

/-- V15. -/
theorem test_ishrow :
    after (exec .ishrow loaded) State.s = some #v[0x00ddaa77#32, 0x4411eebb#32, 0x885522ff#32, 0xcc996633#32] := by
  decide

/-- V15. -/
theorem test_mixc :
    after (exec .mixc loaded) State.s = some #v[0x22770055#32, 0x66334411#32, 0xaaff88dd#32, 0xeebbcc99#32] := by
  decide

/-- V15. -/
theorem test_imixc :
    after (exec .imixc loaded) State.s = some #v[0xaaff88dd#32, 0xeebbcc99#32, 0x22770055#32, 0x66334411#32] := by
  decide

/-- V15: MixColumns on single columns. -/
theorem test_mixc_columns :
    after (exec .mixc (stepping #v[0xdb135345#32, 0xf20a225c#32, 0x01010101#32, 0xc6c6c6c6#32])) State.s
      = some #v[0x8e4da1bc#32, 0x9fdc589d#32, 0x01010101#32, 0xc6c6c6c6#32] := by
  decide

/-- V1. -/
theorem test_encb :
    after (exec .encb (withData keyed plain)) (fun t => (t.dout, t.olen, t.err, t.sv))
      = some (Memory.ofBytes (hex 16 0x69c4e0d86a7b0430d8cdb78070b4c55a),
        16#32, 0#3, false) := by
  decide +kernel

/-- R307: no schedule comes before the block size; V17: DLEN = 17 with a schedule. -/
theorem test_encb_fails :
    (after (exec .encb { base with dlen := 17#32 }) State.err = some 6#3)
      ∧ after (exec .encb { keyed with dlen := 17#32 }) State.err = some 3#3 := by
  decide

/-- V17. -/
theorem test_decb :
    after (exec .decb (withData keyed (hex 16 0x69c4e0d86a7b0430d8cdb78070b4c55a))) State.dout
      = some (Memory.ofBytes plain) := by
  decide +kernel

/-- V22: three bytes under a nonzero IV. -/
theorem test_cbce :
    after (exec .cbce (withData { keyed with ivlen := 16#32, iv := Memory.ofBytes (hex 16 0x0f0e0d0c0b0a09080706050403020100) }
        (hex 3 0x616263)))
      (fun t => (t.dout, t.olen))
      = some (Memory.ofBytes (hex 16 0xba531ab49213c52f3ac482de024dedbb), 16#32) := by
  decide +kernel

/-- V25: DLEN = 4095 fits, 4096 does not; IVLEN = 15 comes after the capacity. -/
theorem test_cbce_capacity :
    (after (exec .cbce { keyed with ivlen := 15#32, dlen := 4095#32 }) State.err = some 2#3)
      ∧ after (exec .cbce { keyed with ivlen := 15#32, dlen := 4096#32 }) State.err = some 6#3 := by
  decide

/-- V20: a successful empty plaintext. -/
theorem test_cbcd :
    after (exec .cbcd (withData { keyed with ivlen := 16#32, dout := counting 5, olen := 5#32 }
        (hex 16 0x954f64f2e4e86e9eee82d20216684899)))
      (fun t => (t.dout, t.olen, t.err)) = some ([], 0#32, 0#3) := by
  decide +kernel

/-- V25: the order of the checks. -/
theorem test_cbcd_fails :
    (after (exec .cbcd { keyed with ivlen := 15#32, dlen := 31#32 }) State.err = some 2#3)
      ∧ (after (exec .cbcd { keyed with ivlen := 16#32, dlen := 31#32 }) State.err = some 4#3)
      ∧ after (exec .cbcd { keyed with ivlen := 17#32, dlen := 4097#32 }) State.err = some 6#3 := by
  decide

/-- V27: `616263`. -/
theorem test_pad :
    after (exec .pad (withData base (hex 3 0x616263))) (fun t => (t.dout, t.olen))
      = some (Memory.ofBytes (hex 16 0x6162630d0d0d0d0d0d0d0d0d0d0d0d0d), 16#32) := by
  decide

/-- V27: DLEN = 4096 and 4097 do not fit. -/
theorem test_pad_fails :
    (after (exec .pad { base with dlen := 4096#32 }) State.err = some 6#3)
      ∧ after (exec .pad { base with dlen := 4097#32 }) State.err = some 6#3 := by
  decide

/-- V27: the length need not be a multiple of 16. -/
theorem test_unpad :
    after (exec .unpad (withData base (hex 3 0x616201))) (fun t => (t.dout, t.olen))
      = some (Memory.ofBytes (hex 2 0x6162), 2#32) := by
  decide

/-- V27: p = 0, p above the length, a byte that differs, p = 17. -/
theorem test_unpad_fails :
    (after (exec .unpad (withData base (hex 1 0x00))) State.err = some 5#3)
      ∧ (after (exec .unpad (withData base (hex 1 0x02))) State.err = some 5#3)
      ∧ (after (exec .unpad (withData base (hex 4 0x61620303))) State.err = some 5#3)
      ∧ after (exec .unpad (withData base (List.replicate 17 0x11#8))) State.err = some 5#3 := by
  decide

/-- V30: a five-byte nonce; bytes above NLEN are not read. -/
theorem test_sinit :
    after (exec .sinit { base with
        klen := 32#32, key := counting 32, nlen := 5#32, ctr0 := 0xffffffff#32
        nonce := Memory.ofBytes (hex 12 0x0102030405ffffffffffffff) })
      (fun t => (t.x, t.xv))
      = some (#v[0x61707865#32, 0x3320646e#32, 0x79622d32#32, 0x6b206574#32,
        0x03020100#32, 0x07060504#32, 0x0b0a0908#32, 0x0f0e0d0c#32,
        0x13121110#32, 0x17161514#32, 0x1b1a1918#32, 0x1f1e1d1c#32,
        0xffffffff#32, 0x04030201#32, 0x00000005#32, 0x00000000#32], true) := by
  decide

/-- V30: NLEN = 13 comes before the key size. -/
theorem test_sinit_fails :
    (after (exec .sinit { base with klen := 16#32, nlen := 13#32 }) State.err = some 6#3)
      ∧ after (exec .sinit { base with klen := 31#32, nlen := 12#32 }) State.err = some 1#3 := by
  decide

/-- V30: ffffffff wraps and X[13] stays. -/
theorem test_sinc :
    after (exec .sinc { streaming with x := v2.set 12 0xffffffff#32 }) (fun t => (t.x[12], t.x[13]))
      = some (0#32, 0x09000000#32) := by
  decide

/-- V33. -/
theorem test_ldw :
    after (exec .ldw { base with x := v2, xv := true }) (fun t => (t.w, t.wv)) = some (v2, true) := by
  decide

/-- V33: QR 0,4,8,12 on the state of V2. -/
theorem test_qr :
    after (exec (.qr 0 4 8 12) streaming) State.w = some
      ((((v2.set 0 0xabbaa25c#32).set 4 0x3a465196#32).set 8 0x6b3ca454#32).set 12 0xdec62ed2#32) := by
  decide

/-- V32: repeated indices. -/
theorem test_qr_fails :
    (after (exec (.qr 0 0 8 12) streaming) (fun t => (t.err, t.w == v2)) = some (6#3, true))
      ∧ after (exec (.qr 1 2 3 1) streaming) State.err = some 6#3 := by
  decide

/-- V33: one iteration. -/
theorem test_drnd :
    after (exec .drnd streaming) State.w = some
      #v[0xcd52e917#32, 0x85ab03b4#32, 0xb3457395#32, 0xf96de7dd#32,
        0xc4b7cd22#32, 0x5c2e187a#32, 0xc95eb461#32, 0x316c801a#32,
        0x7bf7d740#32, 0x7eddd644#32, 0xf1a1bdf5#32, 0x761246ca#32,
        0x6b0d58a3#32, 0x6798471a#32, 0xd737f167#32, 0xf173888d#32] := by
  decide +kernel

/-- V35: directly after LDW every word doubles. -/
theorem test_ffwd :
    after (exec .ffwd streaming) (fun t => (t.w[0], t.w[15], t.x == v2)) = some (0xc2e0f0ca#32, 0#32, true) := by
  decide

/-- V35: X itself, bytes 0 to 3 and the counter in bytes 48 to 51. -/
theorem test_serw :
    after (exec .serw streaming) (fun t => (t.dout.slice 0 4, t.dout.slice 48 4, t.olen))
      = some ((hex 4 0x65787061), (hex 4 0x01000000), 64#32) := by
  decide

/-- V2: the first eight bytes of the keystream; X and W stay. -/
theorem test_sblk :
    after (exec .sblk { streaming with w := v2.set 0 1#32 }) (fun t => (t.dout.slice 0 8, t.olen, t.x == v2, t.w[0]))
      = some ((hex 8 0x10f1e7e4d13b5915), 64#32, true, 1#32) := by
  decide +kernel

/-- V34: `616263`. -/
theorem test_sapply :
    after (exec .sapply (withData streaming (hex 3 0x616263)))
      (fun t => (t.dout, t.olen, t.x[12])) = some (Memory.ofBytes (hex 3 0x719384), 3#32, 2#32) := by
  decide +kernel

/-- V34: DLEN = 4097 leaves X[12]. -/
theorem test_sapply_fails :
    after (exec .sapply { streaming with dlen := 4097#32 }) (fun t => (t.err, t.x[12])) = some (6#3, 1#32) := by
  decide

/-! ### The host port -/

/-- The state after one step. -/
def stepOf (p : HostAction) (st : State) : Option State := nextOf (step { st with pending := [p] })

/-- V41: after KEXP fails directly after reset STATUS reads 0x10. -/
theorem test_host_status :
    (stepOf (.readCsr 0x01) { base with err := 1#3 }).map State.response = some (some (.csr 0x10#32)) := by
  decide

/-- V42: WR OLEN, NR, STATUS, ERR, CAP and 0x0B are ignored. -/
theorem test_host_read_only :
    [0x08, 0x09, 0x01, 0x02, 0x0A, 0x0B].map (fun n => stepOf (.writeCsr n 5#32) keyed) = List.replicate 6 (some keyed) := by
  decide +kernel

/-- V42: CAP reads 4096, CMD and 0x0B read 0. -/
theorem test_host_cap :
    [0x0A, 0x00, 0x0B].map (fun n => (stepOf (.readCsr n) base).map State.response)
      = [some (some (.csr 4096#32)), some (some (.csr 0#32)), some (some (.csr 0#32))] := by
  decide

/-- V42: any value is stored. -/
theorem test_host_klen :
    (stepOf (.writeCsr 0x03 0xffffffff#32) base).map State.klen = some 0xffffffff#32 := by
  decide

/-- V42: DIN[4095] is written; DOUT[0], KEY[32] and DIN[4096] are not. -/
theorem test_host_bytes :
    (stepOf (.writeByte .din 4095 0xaa#8) base).map State.din = some [(4095, 0xaa#8)]
      ∧ [(Buffer.dout, 0), (.key, 32), (.din, 4096)].map (fun p => stepOf (.writeByte p.1 p.2 0xaa#8) base)
        = List.replicate 3 (some base) := by
  decide +kernel

/-- V43: RESET leaves CAP. -/
theorem test_host_reset :
    stepOf .reset { loaded with klen := 3#32, din := counting 4 } = some base := by
  decide +kernel

/-- The word placed by `withFetchWord` is the very next command. -/
theorem test_placed_word :
    after (step (base.withFetchWord 32 0x00000010)) (fun t => (t.err, t.pending)) = some (1#3, []) := by
  decide

/-! ### The assembler -/

/-- P2 and R105. -/
theorem test_line_command :
    readLine "QR 0,4,8,12  # one".toList = some (some (.command (.qr 0 4 8 12) none))
      ∧ readLine "CBCD -> InvalidPadding".toList = some (some (.command .cbcd (some .invalidPadding))) := by
  decide

/-- R106, R107. -/
theorem test_line_host :
    readLine "WR KLEN, 0x10".toList = some (some (.wr 0x03 16#32))
      ∧ readLine "LOADDATA -".toList = some (some (.loadData []))
      ∧ readLine "RDB KEY, 32, 1 -> 00".toList = some (some (.rdb .key 32 1 (some [0x00#8]))) := by
  decide

/-- R107: only the first 32 bytes are written, KLEN is the full length. -/
theorem test_line_loadkey :
    (Line.loadKey (List.replicate 33 0x01#8)).actions base
      = ((List.range 32).map fun i => .writeByte .key i 0x01#8) ++ [.writeCsr 0x03 33#32] := by
  decide

/-- R106: the number after RD is compared whole; one that no CSR holds is no line after WR. -/
theorem test_line_numbers :
    (Line.rd 0x03 (some 0x100000010)).agrees { base with klen := 16#32 } base = false
      ∧ (readLine "RD KLEN -> 0x100000010".toList = some (some (.rd 0x03 (some 0x100000010))))
      ∧ readLine "WR KLEN, 0x100000000".toList = none := by
  decide

/-- What a software call returns, or the error it raises with the ERR it leaves. -/
def callAnswer (r : Option CallResult) : Option (Bytes ⊕ ErrorKind × BitVec 3) :=
  match r with
  | some (_, .ok v) => some (.inl v)
  | some (t, .error e) => some (.inr (e, t.err))
  | none => none

/-- R108: a 17-byte key stops the call at KEXP (V3), a ciphertext of 15 bytes at CBCD (V25). -/
theorem test_call_stops :
    callAnswer (blockEncrypt [] (hex 17 0) (hex 16 0) base) = some (.inr (.invalidKeySize, 1#3))
      ∧ callAnswer (blockDecrypt (hex 15 0) (hex 16 0) (hex 16 0) base) = some (.inr (.invalidCiphertextLength, 4#3)) := by
  decide +kernel

/-- R270: the counter is 0 when none is given; the only failures are those of SINIT (V30). -/
theorem test_call_stream :
    ((streamCall (hex 32 1) (hex 12 1) none [] { base with ctr0 := 7#32 }).map fun r => r.1.x[12]) = some 0#32
      ∧ callAnswer (streamCall (hex 31 1) (hex 12 1) none [] base) = some (.inr (.invalidKeySize, 1#3))
      ∧ callAnswer (streamCall (hex 32 1) (hex 13 1) none [] base) = some (.inr (.illegalCommand, 6#3)) := by
  decide +kernel

/-- R108: data that fit DIN are one piece, 100 bytes with DCAP = 100 among them; R343: longer data split at multiples of 64. -/
theorem test_call_pieces :
    ([0, 64, 65, 128, 129].map fun n => (small.piecesOf (List.replicate n 0#8)).map List.length)
      = [[0], [64], [64, 1], [64, 64], [64, 64, 1]]
      ∧ ([100, 101].map fun n => ((State.resetWith 100#32).piecesOf (List.replicate n 0#8)).map List.length)
        = [[100], [64, 37]] := by
  decide +kernel

/-! ### Witnesses: what the hypotheses of each statement ask is met -/

/-- A small engine with a schedule, a block, a stream state, a working copy, one result byte, and host actions to come. -/
def live (p : List HostAction) : State :=
  { small with rkv := true, nr := 10#4, sv := true, xv := true, x := v2, wv := true, dout := [(0, 1#8)], olen := 1#32, pending := p }

/-- It meets the invariant. -/
theorem live_inv (p : List HostAction) : (live p).Inv where
  dcapMin := (by decide : Config.dcapMin ≤ 64#32)
  olenFits := by show 1 ≤ 64; decide
  doutZero := fun i hi => by
    have : 1 ≤ i := hi
    show (if 0 = i then 1#8 else 0#8) = 0#8
    rw [if_neg (by omega)]
  nrNone := fun h => by cases h
  nrSome := fun _ => .inl rfl
  rkAbove := fun i _ => by
    show (Vector.replicate 60 0#32).getD i 0#32 = 0#32
    by_cases h : i < 60 <;> simp [Vector.getD, h]
  errCode := (by decide : 0#3 ≤ 6#3)
  xConstants := fun _ => ⟨rfl, rfl, rfl, rfl⟩
  rkEmpty := fun h => by cases h
  sEmpty := fun h => by cases h
  xEmpty := fun h => by cases h
  wEmpty := fun h => by cases h
  keyForm := (by decide : Memory.wf [] ∧ Memory.below [] 32)
  ivForm := (by decide : Memory.wf [] ∧ Memory.below [] 16)
  nonceForm := (by decide : Memory.wf [] ∧ Memory.below [] 12)
  dinForm := (by decide : Memory.wf [] ∧ Memory.below [] 64)
  doutForm := (by decide : Memory.wf [(0, 1#8)] ∧ Memory.below [(0, 1#8)] 64)

/-- WordOfNoCommandRaisesIllegalCommand. -/
theorem witness_word_of_no_command : ∀ i, encode i ≠ 0x00000002#32 := by
  intro i h
  have e : opcode i = 0x02#8 := by
    have hs : (encode i).extractLsb' 0 8 = opcode i := by
      cases i with
      | strk r => exact (Laws.CommandWord.strk r).2
      | ark r => exact (Laws.CommandWord.ark r).2
      | qr a b c d => exact (Laws.CommandWord.qr a b c d).2
      | _ => rfl
    rw [h] at hs; exact hs.symm
  revert e
  cases i <;> simp [opcode]

/-- ReservedEncodingsAreIllegal: every range of reserved opcodes at both ends, and each field that must be zero. -/
theorem witness_reserved_encodings :
    (∀ o ∈ [0x02#8, 0x0F#8, 0x1D#8, 0x1F#8, 0x22#8, 0x27#8, 0x2A#8, 0x2F#8, 0x32#8, 0x37#8, 0x3E#8, 0x3F#8, 0x41#8, 0xFF#8],
      opcodeReserved o)
    ∧ (0x01000000#32).extractLsb' 24 8 ≠ 0#8
    ∧ ((0x00000110#32).extractLsb' 8 16 ≠ 0#16 ∧ (0x00000110#32).extractLsb' 0 8 ≠ 0x11#8
      ∧ (0x00000110#32).extractLsb' 0 8 ≠ 0x14#8 ∧ (0x00000110#32).extractLsb' 0 8 ≠ 0x39#8)
    ∧ ((0x00001011#32).extractLsb' 12 12 ≠ 0#12 ∧ (0x00001011#32).extractLsb' 0 8 = 0x11#8)
    ∧ ((0x00801014#32).extractLsb' 12 12 ≠ 0#12 ∧ (0x00801014#32).extractLsb' 0 8 = 0x14#8) := by
  unfold opcodeReserved; decide

/-- StepRunsTheDecodedCommand: a word that decodes and a word that does not. -/
theorem witness_step_runs :
    ((host [.writeCsr 0x00 0x00d87239#32, .reset]).pending = .writeCsr 0x00 0x00d87239#32 :: [.reset]
      ∧ decode 0x00d87239#32 = .ok (.qr 2 7 8 13))
    ∧ (host [.writeCsr 0x00 0x01000000#32]).pending = .writeCsr 0x00 0x01000000#32 :: []
    ∧ ∀ i, decode 0x01000000#32 ≠ .ok i :=
  ⟨by decide, rfl, fun i h => by cases (show Except.error DecodeError.zeroFieldSet = Except.ok i from h)⟩

/-- EveryHostActionIsAccepted: the waiting clause. -/
theorem witness_waiting : (host []).pending = [] := rfl

/-- ResetMeetsTheInvariant and ResetLeavesTheListedValues: the least and the greatest DCAP, and an index and a command of each
clause. -/
theorem witness_reset : Config.dcapMin ≤ 64#32 ∧ Config.dcapMin ≤ 0xffffffff#32 ∧ 59 < 60 ∧ 3 < 4 ∧ 15 < 16
    ∧ (Instr.encb ≠ .nop ∧ Instr.encb ≠ .rst ∧ Instr.encb ≠ .pad ∧ Instr.encb ≠ .kexp ∧ Instr.encb ≠ .sinit
      ∧ Instr.encb ≠ .lds ∧ Instr.encb ≠ .unpad) := by decide

/-- StepKeepsTheInvariant: a step that changes the state. -/
theorem witness_step_keeps : (live [.writeCsr 0x07 9#32]).Inv
    ∧ step (live [.writeCsr 0x07 9#32]) = .next { live [] with dlen := 9#32 } := ⟨live_inv _, rfl⟩

/-- CsrReadReturnsTheValue: the first number, the last one and one above it. -/
theorem witness_csr_read : (host [.readCsr 0x00]).pending = .readCsr 0x00 :: [] ∧ (host [.readCsr 0x0A]).pending = .readCsr 0x0A :: []
    ∧ ((host [.readCsr 0x0B]).pending = .readCsr 0x0B :: [] ∧ 0x0A < 0x0B) := by decide

/-- CsrWriteStoresOrIsIgnored: a number of every clause, the last clause at its three ends. -/
theorem witness_csr_write : ∀ n ∈ [0x03, 0x04, 0x05, 0x06, 0x07, 0x01, 0x02, 0x08],
    (host [.writeCsr n 0xffffffff#32]).pending = .writeCsr n 0xffffffff#32 :: []
      ∧ ((n = 0x03 ∨ n = 0x04 ∨ n = 0x05 ∨ n = 0x06 ∨ n = 0x07) ∨ (n = 0x01 ∨ n = 0x02 ∨ 0x08 ≤ n)) := by decide

/-- BufferReadReturnsTheByte: the last index of a buffer and the first beyond it. -/
theorem witness_buffer_read : ∀ p ∈ [(Buffer.key, 31), (.key, 32), (.iv, 15), (.iv, 16), (.nonce, 11), (.nonce, 12), (.din, 63),
      (.din, 64), (.dout, 63), (.dout, 64)],
    (host [.readByte p.1 p.2]).pending = .readByte p.1 p.2 :: [] := by decide

/-- BufferWriteSetsOneByte: the same boundaries, on an engine that meets the invariant. -/
theorem witness_buffer_write : ∀ p ∈ [(Buffer.key, 31), (.key, 32), (.iv, 15), (.iv, 16), (.nonce, 11), (.nonce, 12), (.din, 63),
      (.din, 64), (.dout, 0)],
    (live [.writeByte p.1 p.2 0xaa#8]).Inv
      ∧ (live [.writeByte p.1 p.2 0xaa#8]).pending = .writeByte p.1 p.2 0xaa#8 :: [] :=
  fun _ _ => ⟨live_inv _, rfl⟩

/-- NopClearsErrAndRstResets: the clause of HostReset. -/
theorem witness_host_reset : (live [.reset, .reset]).pending = .reset :: [.reset] := rfl

/-- TablesMeetTheirDefinitions: zero, a byte with an inverse, and the first and last doubling of RCON. -/
theorem witness_tables : (0#8 = 0#8) ∧ gmul 0x53#8 0xca#8 = 1#8 ∧ (1 ≤ 1 ∧ 1 < 10) ∧ (1 ≤ 9 ∧ 9 < 10) := by decide

/-- ExpandChecksTheLength: the three legal lengths and their neighbours. -/
theorem witness_expand : (∀ n ∈ [16, 24, 32], (List.replicate n 0#8 : Bytes).length = n)
    ∧ ∀ n ∈ [0, 15, 17, 23, 25, 31, 33], (List.replicate n 0#8 : Bytes).length ≠ 16
      ∧ (List.replicate n 0#8 : Bytes).length ≠ 24 ∧ (List.replicate n 0#8 : Bytes).length ≠ 32 := by decide

/-- KexpStoresTheSchedule: each legal KLEN, the ranges of the word index at their ends for KLEN 16, and lengths that fail. -/
theorem witness_kexp : [16#32, 24#32, 32#32].map (fun k => ({ small with klen := k } : State).klen) = [16#32, 24#32, 32#32]
    ∧ (3 < 16 / 4 ∧ 16 / 4 ≤ 4 ∧ 4 < 4 * (10 + 1) ∧ 43 < 4 * (10 + 1) ∧ 4 * (10 + 1) ≤ 44 ∧ 44 < 60 ∧ 59 < 60)
    ∧ (small.klen ≠ 16#32 ∧ small.klen ≠ 24#32 ∧ small.klen ≠ 32#32)
    ∧ (({ small with klen := 33#32 } : State).klen ≠ 16#32 ∧ ({ small with klen := 33#32 } : State).klen ≠ 24#32
      ∧ ({ small with klen := 33#32 } : State).klen ≠ 32#32) := by decide

/-- StrkOutputsTheRoundKey: the last round, the first beyond it, and no schedule. -/
theorem witness_strk : (keyed.rkv = true ∧ 10#4 ≤ keyed.nr) ∧ keyed.nr < 11#4 ∧ base.rkv = false := by decide

/-- LdsLoadsTheBlock: a block, one byte more than DCAP, and a wrong length that fits. -/
theorem witness_lds : ((withData small plain).dlen ≤ (withData small plain).cap ∧ (withData small plain).dlen = 16#32 ∧ 3 < 4)
    ∧ ({ small with dlen := 65#32 } : State).cap < ({ small with dlen := 65#32 } : State).dlen
    ∧ (({ small with dlen := 64#32 } : State).dlen ≤ ({ small with dlen := 64#32 } : State).cap
      ∧ ({ small with dlen := 64#32 } : State).dlen ≠ 16#32) := by decide

/-- StsOutputsTheBlock, and the four statements on the steps on S: a loaded block and none. -/
theorem witness_step_register : loaded.sv = true ∧ base.sv = false ∧ 3 < 4 := by decide

/-- ArkXorsTheRoundKey: the last round, the first beyond it, no block, no schedule, and an engine that meets the invariant. -/
theorem witness_ark : (loaded.rkv = true ∧ loaded.sv = true ∧ 10#4 ≤ loaded.nr) ∧ loaded.nr < 11#4 ∧ keyed.sv = false
    ∧ base.rkv = false ∧ (live []).Inv := ⟨by decide, by decide, by decide, by decide, live_inv _⟩

/-- EncryptBlockFollowsTheRounds, DecryptBlockFollowsTheRounds: the first and the last full round of ten rounds. -/
theorem witness_rounds : 1 ≤ 10 ∧ (1 ≤ 1 ∧ 1 ≤ 10 - 1) ∧ (1 ≤ 9 ∧ 9 ≤ 10 - 1) := by decide

/-- BlockFunctionsAreInverse, CbcRoundTrip: sixteen bytes. -/
theorem witness_sixteen_bytes : plain.length = 16 := by decide

/-- EncbAndDecbOutputTheImage, StepCommandsSpellOutEncb: a schedule and a block; each failing clause. -/
theorem witness_encb : ((withData keyed plain).rkv = true ∧ (withData keyed plain).dlen ≤ (withData keyed plain).cap
      ∧ (withData keyed plain).dlen = 16#32)
    ∧ base.rkv = false ∧ ({ keyed with dlen := 4097#32 } : State).cap < ({ keyed with dlen := 4097#32 } : State).dlen
    ∧ (({ keyed with dlen := 4096#32 } : State).rkv = true
      ∧ ({ keyed with dlen := 4096#32 } : State).dlen ≤ ({ keyed with dlen := 4096#32 } : State).cap
      ∧ ({ keyed with dlen := 4096#32 } : State).dlen ≠ 16#32) := by decide

/-- PadAppendsTheCount: the greatest DLEN that fits, the least that does not, and one above DCAP. -/
theorem witness_pad : (63 ≤ 64 ∧ 63 + 16 - 63 % 16 ≤ 64) ∧ 64 < 64 + 16 - 64 % 16 ∧ 64 < 65
    ∧ ∀ n ∈ [63, 64, 65], ({ small with dlen := BitVec.ofNat 32 n } : State).dlen.toNat = n ∧ small.cap.toNat = 64 := by decide

/-- UnpadChecksAndStrips: p = 16 and p = 1 valid; empty data, p = 17 and p above the length invalid; one byte above DCAP. -/
theorem witness_unpad :
    (∀ b ∈ [List.replicate 16 0x10#8, [0x01#8]],
      let st := withData small b
      let p := (st.din.read (st.dlen.toNat - 1)).toNat
      st.dlen.toNat ≤ st.cap.toNat ∧ st.dlen.toNat ≠ 0 ∧ 1 ≤ p ∧ p ≤ 16 ∧ p ≤ st.dlen.toNat
        ∧ ∀ j < st.dlen.toNat, st.dlen.toNat - p ≤ j → (st.din.read j).toNat = p)
    ∧ (∀ b ∈ [[], List.replicate 17 0x11#8, [0x02#8]],
      let st := withData small b
      let p := (st.din.read (st.dlen.toNat - 1)).toNat
      st.dlen.toNat ≤ st.cap.toNat ∧ (st.dlen.toNat = 0 ∨ 16 < p ∨ st.dlen.toNat < p))
    ∧ small.cap.toNat < ({ small with dlen := 65#32 } : State).dlen.toNat := by decide

/-- UnpadUndoesPad: the least and the greatest block size. -/
theorem witness_unpad_pad : (1 ≤ 1 ∧ 1 ≤ 255) ∧ (1 ≤ 255 ∧ 255 ≤ 255) := by decide

/-- CbceOutputsTheCiphertext: the greatest DLEN that fits, each way to be illegal, and a wrong IVLEN. -/
theorem witness_cbce :
    (keyed.rkv = true ∧ 4095 ≤ keyed.cap.toNat ∧ 4095 + 16 - 4095 % 16 ≤ keyed.cap.toNat
      ∧ ({ keyed with ivlen := 16#32, dlen := 4095#32 } : State).ivlen = 16#32
      ∧ ({ keyed with ivlen := 15#32, dlen := 4095#32 } : State).ivlen ≠ 16#32)
    ∧ base.rkv = false ∧ ¬4096 + 16 - 4096 % 16 ≤ keyed.cap.toNat ∧ ¬4097 ≤ keyed.cap.toNat := by decide

/-- CbcDecryptChainsTheBlocks: one block, no data, and a length that is not a multiple of 16. -/
theorem witness_cbc_decrypt : (plain.length ≠ 0 ∧ plain.length % 16 = 0) ∧ ([] : Bytes).length = 0
    ∧ (List.replicate 31 0#8 : Bytes).length % 16 ≠ 0 := by decide

/-- What `cbcDecrypt` returns for the operands of CBCD, if it does not fail. -/
def decrypted (st : State) : Option Bytes :=
  match cbcDecrypt st.dataOperand st.rk st.nr.toNat st.ivOperand with
  | .ok m => some m
  | .error _ => none

/-- CbcdOutputsThePlaintext: the ciphertext of V20 decrypts to nothing, the first block of V21 alone fails the padding check
(R196, C7), and each structural failure. -/
theorem witness_cbcd :
    (let st := { withData keyed (hex 16 0x954f64f2e4e86e9eee82d20216684899) with ivlen := 16#32 };
      st.rkv = true ∧ st.dlen.toNat ≤ st.cap.toNat ∧ st.ivlen = 16#32 ∧ (st.dlen.toNat ≠ 0 ∧ st.dlen.toNat % 16 = 0)
        ∧ decrypted st = some [])
    ∧ (let st := { withData keyed (hex 16 0x69c4e0d86a7b0430d8cdb78070b4c55a) with ivlen := 16#32 };
      st.rkv = true ∧ st.dlen.toNat ≤ st.cap.toNat ∧ st.ivlen = 16#32 ∧ (st.dlen.toNat ≠ 0 ∧ st.dlen.toNat % 16 = 0)
        ∧ decrypted st = none)
    ∧ base.rkv = false ∧ ¬4097 ≤ keyed.cap.toNat
    ∧ (keyed.rkv = true ∧ keyed.dlen.toNat ≤ keyed.cap.toNat ∧ keyed.ivlen ≠ 16#32)
    ∧ ¬(keyed.dlen.toNat ≠ 0 ∧ keyed.dlen.toNat % 16 = 0) ∧ 31 % 16 ≠ 0 := by decide +kernel

/-- SinitBuildsTheStreamState: NLEN 12 and 13, KLEN 32 and 31. -/
theorem witness_sinit : (12#32 ≤ 12#32 ∧ 32#32 = 32#32) ∧ 12#32 < 13#32 ∧ (12#32 ≤ 12#32 ∧ 31#32 ≠ 32#32)
    ∧ ({ base with klen := 32#32, nlen := 12#32 } : State).nlen = 12#32 := by decide

/-- SincAdvancesTheCounter, LdwAndFfwdTakeTheStreamState, DrndIsEightQuarterRounds, SerwSerialisesTheBuffer,
SblkOutputsTheKeystreamBlock, StepCommandsSpellOutSblk: the flags set and not set; an index other than 12. -/
theorem witness_stream_flags : streaming.xv = true ∧ streaming.wv = true ∧ base.xv = false ∧ base.wv = false
    ∧ (15 < 16 ∧ 15 ≠ 12) := by decide

/-- QrMixesFourWords: distinct indices with an index outside them, a repeated index, and no working copy. -/
theorem witness_qr : (streaming.wv = true ∧ indicesDistinct 15 14 13 12 = true ∧ 0 < 16 ∧ 0 ≠ (15#4).toNat ∧ 0 ≠ (14#4).toNat
      ∧ 0 ≠ (13#4).toNat ∧ 0 ≠ (12#4).toNat)
    ∧ indicesDistinct 0 1 2 0 = false ∧ base.wv = false := by decide

/-- SapplyXorsTheKeystream: DLEN = DCAP, one byte more, and no stream state. -/
theorem witness_sapply :
    (({ streaming with dlen := 4096#32 } : State).xv = true
      ∧ ({ streaming with dlen := 4096#32 } : State).dlen ≤ ({ streaming with dlen := 4096#32 } : State).cap)
    ∧ ({ streaming with dlen := 4097#32 } : State).cap < ({ streaming with dlen := 4097#32 } : State).dlen ∧ base.xv = false := by
  decide

/-- FailingCommandChangesErrOnly: a command that fails. -/
theorem witness_failing : exec .encb base = .next { base with err := 6#3 } ∧ ({ base with err := 6#3 } : State).err ≠ 0#3 :=
  ⟨rfl, by decide⟩

/-- InvalidFileFailsIllegalCommand: each file. -/
theorem witness_invalid_file : (Instr.encb.needs.1 = true ∧ base.rkv = false) ∧ (Instr.sts.needs.2.1 = true ∧ base.sv = false)
    ∧ (Instr.ffwd.needs.2.2.1 = true ∧ base.xv = false) ∧ (Instr.ffwd.needs.2.2.2 = true ∧ base.wv = false) := by decide

/-- ValidFlagsFollowTheirCommands, OperandsAreImmutable, SessionsKeepScheduleAndStreamState: a command that sets a flag, and its
failure. -/
theorem witness_flags : (Instr.ldw ≠ .rst ∧ exec .ldw streaming = .next streaming)
    ∧ exec .kexp base = .next { base with err := 1#3 } ∧ exec .sinit base = .next { base with err := 1#3 }
    ∧ (Instr.ldw ≠ .sinit ∧ Instr.ldw ≠ .sinc ∧ Instr.ldw ≠ .sapply) := ⟨⟨by decide, rfl⟩, rfl, rfl, by decide⟩

/-- OutputIsKeptWithoutOutput: a command without output, a failing one, and RST. -/
theorem witness_output : (exec .ldw streaming = .next streaming ∧ Instr.ldw.producesNoOutput = true)
    ∧ exec .encb base = .next { base with err := 6#3 } ∧ exec .rst loaded = .next base := ⟨⟨rfl, rfl⟩, rfl, rfl⟩

/-- UnitsDoNotInteract: a command of each unit. -/
theorem witness_units : Instr.isBlockUnit .cbce = true ∧ Instr.isStreamUnit .sapply = true := by decide

end Sys2Proof.Tests
end

section
/-! PROOFS. What a command and a host action can do to the state, and with it the three statements on the step: every host
action is accepted (R8, R306), reset meets the invariant, and every step keeps it (10_state.md section 7, R50). -/
namespace Sys2Proof.Machine

/-! ### The invariant holds after reset and is kept by every update of the state -/

/-- Every piece of state is zero after reset (R331), which is what R50 asks of files without their valid flag. -/
theorem State.resetWith_inv {c : Word} (hc : Config.dcapMin ≤ c) : (State.resetWith c).Inv where
  dcapMin := hc
  olenFits := Nat.zero_le _
  doutZero := fun _ _ => rfl
  nrNone := fun _ => rfl
  nrSome := fun h => by cases h
  rkAbove := fun i _ => by
    show (Vector.replicate 60 0#32).getD i 0#32 = 0#32
    by_cases h : i < 60 <;> simp [Vector.getD, h]
  errCode := (by decide : 0#3 ≤ 6#3)
  xConstants := fun h => by cases h
  rkEmpty := fun _ => rfl
  sEmpty := fun _ => rfl
  xEmpty := fun _ => rfl
  wEmpty := fun _ => rfl
  keyForm := (by decide : Memory.wf [] ∧ Memory.below [] 32)
  ivForm := (by decide : Memory.wf [] ∧ Memory.below [] 16)
  nonceForm := (by decide : Memory.wf [] ∧ Memory.below [] 12)
  dinForm := ⟨(by decide : Memory.wf []), fun _ h => by cases h⟩
  doutForm := ⟨(by decide : Memory.wf []), fun _ h => by cases h⟩

namespace State.Inv

variable {st : State}

theorem cap_ge (h : st.Inv) : 64 ≤ st.cap.toNat := h.dcapMin

theorem setErr {e : BitVec 3} (h : st.Inv) (he : e ≤ 6#3) : (st.setErr e).Inv := { h with errCode := he }

/-- The host's port is no part of the invariant. -/
theorem setPort (p : List HostAction) (a : Option HostAnswer) (h : st.Inv) :
    ({ st with pending := p, response := a } : State).Inv := { h with }

theorem respond (a : Option HostAnswer) (h : st.Inv) : (st.respond a).Inv := h.setPort st.pending a

theorem resetEngine (h : st.Inv) : st.resetEngine.Inv := (resetWith_inv h.dcapMin).setPort st.pending st.response

/-- Output that fits DOUT (R67): what is listed lies below OLEN, and OLEN does not wrap because DCAP is a 32-bit value. -/
theorem out {v : Bytes} (h : st.Inv) (hv : v.length ≤ st.cap.toNat) : (st.out v).Inv :=
  have hlen : (BitVec.ofNat 32 v.length).toNat = v.length := by
    have := st.cap.isLt
    rw [BitVec.toNat_ofNat, Nat.mod_eq_of_lt (by omega)]
  { h with
    olenFits := hlen.trans_le hv
    doutZero := fun i hi => by
      have hi : v.length ≤ i := hlen ▸ hi
      rw [(st.out_reads v).2, List.getD_eq_default _ _ hi]
    doutForm := ⟨Memory.wf_ofBytes v, Memory.below_ofBytes v _ hv⟩ }

theorem setS {b : Words 4} (h : st.Inv) (hv : st.sv = true) : (st.setS b).Inv :=
  { h with sEmpty := fun h0 => by cases hv.symm.trans h0 }

theorem loadS (b : Words 4) (h : st.Inv) : (st.loadS b).Inv := { h with sEmpty := fun h0 => by cases h0 }

theorem setW {v : Words 16} (h : st.Inv) (hv : st.wv = true) : (st.setW v).Inv :=
  { h with wEmpty := fun h0 => by cases hv.symm.trans h0 }

theorem loadW (v : Words 16) (h : st.Inv) : (st.loadW v).Inv := { h with wEmpty := fun h0 => by cases h0 }

/-- A write of the block counter leaves the constants X[0..3] (R50 (f)). -/
theorem setCounter {c : Word} (h : st.Inv) (hv : st.xv = true) : (st.setX (st.x.set 12 c)).Inv :=
  { h with
    xConstants := fun _ => by simpa using h.xConstants hv
    xEmpty := fun h0 => by cases hv.symm.trans h0 }

/-- The state `init` builds starts with the constants (R227). -/
theorem loadX {k n : Bytes} {ctr : Word} {x : Words 16} (h : st.Inv) (hx : streamInit k n ctr = .ok x) :
    (st.loadX x).Inv :=
  have hc : x = streamLayout k n ctr := by
    unfold streamInit at hx; split at hx <;> cases hx; rfl
  { h with
    xConstants := fun _ => hc ▸ ⟨rfl, rfl, rfl, rfl⟩
    xEmpty := fun h0 => by cases h0 }

end State.Inv

/-- What `expand` returns (R135, R137): a round count that R50 (c) allows and the words of that many round keys. -/
theorem expand_rounds {key : Bytes} {w : List Word} {n : Nat} (h : expand key = .ok (w, n)) :
    (n = 10 ∨ n = 12 ∨ n = 14) ∧ w.length = 4 * (n + 1) := by
  unfold expand at h
  split at h
  · next hk =>
    cases h
    rcases hk with hk | hk | hk <;> simp [hk, keyWords]
  · cases h

/-- RK is zero above the words of the schedule (R40, R141). -/
theorem scheduleFile_getD_eq_zero {w : List Word} {i : Nat} (h : w.length ≤ i) : (scheduleFile w).getD i 0#32 = 0#32 := by
  by_cases hi : i < 60 <;> simp [scheduleFile, Vector.getD, hi, List.getElem?_eq_none h]

theorem State.Inv.loadSchedule {st : State} {key : Bytes} {w : List Word} {n : Nat} (h : st.Inv)
    (he : expand key = .ok (w, n)) : (st.loadSchedule (scheduleFile w) (BitVec.ofNat 4 n)).Inv := by
  obtain ⟨hn, hw⟩ := expand_rounds he
  have hn16 : n % 16 = n := by omega
  exact { h with
    nrNone := fun h0 => by cases h0
    nrSome := fun _ => by rcases hn with rfl | rfl | rfl <;> simp
    rkAbove := fun i hi => scheduleFile_getD_eq_zero (by simp [hn16] at hi; omega)
    rkEmpty := fun h0 => by cases h0 }

/-! ### What a command can do -/

/-- The updates of the state that a command completes with, before `ERR <- 0`. -/
inductive CommandUpdate (st : State) : State → Prop where
  /-- Nothing (NOP). -/
  | unchanged : CommandUpdate st st
  /-- The reset of R330 (RST). -/
  | reset : CommandUpdate st st.resetEngine
  /-- A schedule (KEXP). -/
  | schedule {key w n} (h : expand key = .ok (w, n)) :
      CommandUpdate st (st.loadSchedule (scheduleFile w) (BitVec.ofNat 4 n))
  /-- Output of at most 64 bytes, which every DCAP holds, or of at most DCAP bytes. -/
  | output {v} (h : v.length ≤ 64 ∨ v.length ≤ st.cap.toNat) : CommandUpdate st (st.out v)
  /-- A block into S (LDS). -/
  | loadS (b) : CommandUpdate st (st.loadS b)
  /-- A step on a valid S. -/
  | setS {b} (h : st.sv = true) : CommandUpdate st (st.setS b)
  /-- A stream state into X (SINIT). -/
  | loadX {k n ctr x} (h : streamInit k n ctr = .ok x) : CommandUpdate st (st.loadX x)
  /-- The block counter of a valid X (SINC). -/
  | counter {c} (h : st.xv = true) : CommandUpdate st (st.setX (st.x.set 12 c))
  /-- X into W (LDW). -/
  | loadW (v) : CommandUpdate st (st.loadW v)
  /-- A step on a valid W. -/
  | setW {v} (h : st.wv = true) : CommandUpdate st (st.setW v)
  /-- The block counter of a valid X, and output of at most DCAP bytes (SAPPLY). -/
  | stream {c v} (h : st.xv = true) (hv : v.length ≤ st.cap.toNat) :
      CommandUpdate st ((st.setX (st.x.set 12 c)).out v)

/-- A command writes an error code to ERR and nothing else (R300), or completes with an update and ERR zero (R301). -/
inductive CommandEffect (st : State) : State → Prop where
  | fails (e : ErrorKind) : CommandEffect st (st.setErr e.code)
  | completes {t : State} (h : CommandUpdate st t) : CommandEffect st (t.setErr 0#3)

theorem CommandUpdate.pending_eq {st t : State} (h : CommandUpdate st t) : t.pending = st.pending := by
  cases h <;> rfl

theorem CommandEffect.pending_eq {st t : State} : CommandEffect st t → t.pending = st.pending
  | .fails _ => rfl
  | .completes h => h.pending_eq

theorem CommandUpdate.inv {st t : State} (hst : st.Inv) : CommandUpdate st t → t.Inv
  | .unchanged => hst
  | .reset => hst.resetEngine
  | .schedule h => hst.loadSchedule h
  | .output h => hst.out (h.elim (·.trans hst.cap_ge) id)
  | .loadS b => hst.loadS b
  | .setS h => hst.setS h
  | .loadX h => hst.loadX h
  | .counter h => hst.setCounter h
  | .loadW v => hst.loadW v
  | .setW h => hst.setW h
  | .stream h hv => (hst.setCounter h).out hv

theorem CommandEffect.inv {st t : State} (hst : st.Inv) : CommandEffect st t → t.Inv
  | .fails e => hst.setErr e.code_le_six
  | .completes h => (h.inv hst).setErr (by decide)

/-- The result is a next state that a command can leave behind. -/
def HasEffect (st : State) (r : Result) : Prop := ∃ t, r = .next t ∧ CommandEffect st t

variable {st : State}

theorem raise_effect (e : ErrorKind) : HasEffect st (raise e st) := ⟨_, rfl, .fails e⟩

theorem complete_effect {t : State} (h : CommandUpdate st t) : HasEffect st (complete t) := ⟨_, rfl, .completes h⟩

theorem require_effect {c : Prop} [Decidable c] {e : ErrorKind} {rest : c → Result} (h : ∀ hc, HasEffect st (rest hc)) :
    HasEffect st (require c e st rest) := by
  by_cases hc : c
  · rw [require_pos st e rest hc]; exact h hc
  · rw [require_neg st e rest hc]; exact raise_effect e

theorem attempt_effect {α : Type} {r : Except ErrorKind α} {rest : α → Result}
    (h : ∀ a, r = .ok a → HasEffect st (rest a)) : HasEffect st (attempt r st rest) := by
  cases r with
  | ok a => exact h a rfl
  | error e => exact raise_effect e

theorem stepOnS_effect (f : Words 4 → Words 4) : HasEffect st (stepOnS f st) :=
  require_effect fun hs => complete_effect (.setS hs)

/-- A block command outputs one block, 16 bytes. -/
theorem blockCommand_effect {f : Bytes → Words 60 → Nat → Bytes} (hf : ∀ b rk n, (f b rk n).length = 16) :
    HasEffect st (blockCommand f st) :=
  require_effect fun _ => require_effect fun _ => require_effect fun _ => complete_effect (.output (.inl (by simp [hf])))

/-! The output of the commands whose length depends on DLEN fits DOUT (R299). -/

@[simp] theorem length_dataOperand (st : State) : st.dataOperand.length = st.dlen.toNat :=
  Memory.length_slice _ _ _

theorem length_padBytes_dataOperand (st : State) : (padBytes st.dataOperand 16).length = st.paddedLength := by
  simp [length_padBytes, State.paddedLength]

theorem length_cbcEncrypt (d : Bytes) (rk : Words 60) (n : Nat) (iv : Bytes) :
    (cbcEncrypt d rk n iv).length ≤ (padBytes d 16).length := by
  simp only [cbcEncrypt, length_cbcEncryptBlocks]; omega

theorem length_cbcDecrypt {d m : Bytes} {rk : Words 60} {n : Nat} {iv : Bytes} (h : cbcDecrypt d rk n iv = .ok m) :
    m.length ≤ d.length := by
  unfold cbcDecrypt at h
  split at h
  · cases h
  · have hm := length_unpadBytes h
    have hb := length_cbcDecryptBlocks rk n (d.length / 16) iv d
    omega

theorem length_streamApply (x : Words 16) (d : Bytes) : (streamApply x d).2.length = d.length :=
  length_applyChunks _ x d (by omega)

/-- Every command, in every state, ends with a next state that differs from the old one by one of the listed effects. -/
theorem exec_effect (i : Instr) (st : State) : HasEffect st (exec i st) := by
  cases i with
  | nop => exact complete_effect .unchanged
  | rst => exact complete_effect .reset
  | kexp => exact require_effect fun _ => attempt_effect fun _ hr => complete_effect (.schedule hr)
  | strk r => exact require_effect fun _ => require_effect fun _ => complete_effect (.output (.inl (by simp)))
  | lds => exact require_effect fun _ => require_effect fun _ => complete_effect (.loadS _)
  | sts => exact require_effect fun _ => complete_effect (.output (.inl (by simp)))
  | ark r => exact require_effect fun hv => require_effect fun _ => complete_effect (.setS hv.2)
  | subb => exact stepOnS_effect subBytes
  | isubb => exact stepOnS_effect invSubBytes
  | shrow => exact stepOnS_effect shiftRows
  | ishrow => exact stepOnS_effect invShiftRows
  | mixc => exact stepOnS_effect mixColumns
  | imixc => exact stepOnS_effect invMixColumns
  | encb => exact blockCommand_effect length_encryptBlock
  | decb => exact blockCommand_effect length_decryptBlock
  | cbce =>
    refine require_effect fun _ => require_effect fun _ => require_effect fun hp => require_effect fun _ =>
      complete_effect (.output (.inr ?_))
    exact (length_cbcEncrypt _ _ _ _).trans (by rwa [length_padBytes_dataOperand])
  | cbcd =>
    refine require_effect fun _ => require_effect fun hd => require_effect fun _ => require_effect fun _ =>
      attempt_effect fun m hm => complete_effect (.output (.inr ?_))
    exact (length_cbcDecrypt hm).trans (by rwa [length_dataOperand])
  | pad =>
    refine require_effect fun _ => require_effect fun hp => complete_effect (.output (.inr ?_))
    rwa [length_padBytes_dataOperand]
  | unpad =>
    refine require_effect fun hd => attempt_effect fun m hm => complete_effect (.output (.inr ?_))
    exact (length_unpadBytes hm).trans (by rwa [length_dataOperand])
  | sinit => exact require_effect fun _ => require_effect fun _ => attempt_effect fun _ hx => complete_effect (.loadX hx)
  | sinc => exact require_effect fun hv => complete_effect (.counter hv)
  | ldw => exact require_effect fun _ => complete_effect (.loadW _)
  | qr a b c d => exact require_effect fun hv => require_effect fun _ => complete_effect (.setW hv)
  | drnd => exact require_effect fun hv => complete_effect (.setW hv)
  | ffwd => exact require_effect fun hv => complete_effect (.setW hv.1)
  | serw => exact require_effect fun _ => complete_effect (.output (.inl (by simp)))
  | sblk => exact require_effect fun _ => complete_effect (.output (.inl (by simp)))
  | sapply =>
    refine require_effect fun hv => require_effect fun hd => complete_effect (.stream hv ?_)
    rwa [length_streamApply, length_dataOperand]

/-- A write of CMD has a command's effect, or raises `IllegalCommand` (R97). -/
theorem runWord_effect (w : Word) (st : State) : HasEffect st (runWord w st) := by
  unfold runWord
  cases decode w with
  | ok i => exact exec_effect i st
  | error _ => exact raise_effect .illegalCommand

/-! ### What a host action can do -/

theorem State.pending_writeCsr (st : State) (n : Nat) (v : Word) : (st.writeCsr n v).pending = st.pending := by
  unfold State.writeCsr; split <;> rfl

theorem State.Inv.writeCsr (n : Nat) (v : Word) (h : st.Inv) : (st.writeCsr n v).Inv := by
  unfold State.writeCsr; split <;> exact { h with }

theorem State.pending_writeByte (st : State) (b : Buffer) (i : Nat) (v : Byte) :
    (st.writeByte b i v).pending = st.pending := by
  unfold State.writeByte
  split
  · cases b <;> rfl
  · rfl

/-- A byte written inside the buffer's size leaves the buffer canonical and inside it. -/
theorem Memory.form_write {m : Memory} {n i : Nat} (v : Byte) (hm : m.wf ∧ m.below n) (hi : i < n) :
    (m.write i v).wf ∧ (m.write i v).below n :=
  ⟨Memory.wf_write m i v hm.1, Memory.below_write m n i v hm.2 hi⟩

/-- A byte is written only inside the buffer's size (R63). -/
theorem State.Inv.writeByte (b : Buffer) (i : Nat) (v : Byte) (h : st.Inv) : (st.writeByte b i v).Inv := by
  unfold State.writeByte
  split
  · next hi =>
    cases b with
    | key => exact { h with keyForm := Memory.form_write v h.keyForm hi }
    | iv => exact { h with ivForm := Memory.form_write v h.ivForm hi }
    | nonce => exact { h with nonceForm := Memory.form_write v h.nonceForm hi }
    | din => exact { h with dinForm := Memory.form_write v h.dinForm hi }
    | dout => exact h
  · exact h

/-- Every host action answers a next state; it leaves the actions still to come, and it keeps the invariant. -/
theorem hostAction_accepted (a : HostAction) (st : State) :
    ∃ t, hostAction a st = .next t ∧ t.pending = st.pending ∧ (st.Inv → t.Inv) := by
  cases a with
  | readCsr n => exact ⟨_, rfl, rfl, fun h => h.respond _⟩
  | readByte b i => exact ⟨_, rfl, rfl, fun h => h.respond _⟩
  | writeCsr n v =>
    unfold hostAction
    dsimp only
    split
    · obtain ⟨t, ht, he⟩ := runWord_effect v (st.respond none)
      exact ⟨t, ht, he.pending_eq, fun h => he.inv (h.respond none)⟩
    · exact ⟨_, rfl, State.pending_writeCsr _ n v, fun h => (h.respond none).writeCsr n v⟩
  | writeByte b i v => exact ⟨_, rfl, State.pending_writeByte _ b i v, fun h => (h.respond none).writeByte b i v⟩
  | reset => exact ⟨_, rfl, rfl, fun h => (h.respond none).resetEngine⟩

/-! ### The step -/

theorem step_waiting (h : st.pending = []) : step st = .next st := by simp [step, nextAction, h]

theorem step_action {a : HostAction} {rest : List HostAction} (h : st.pending = a :: rest) :
    step st = hostAction a { st with pending := rest } := by simp [step, nextAction, h]

/-- Every step answers a next state; it takes the first action off the host's list, and it keeps the invariant. -/
theorem step_accepted (st : State) : ∃ t, step st = .next t ∧ t.pending = st.pending.tail ∧ (st.Inv → t.Inv) := by
  cases hp : st.pending with
  | nil => exact ⟨st, step_waiting hp, hp, id⟩
  | cons a rest =>
    obtain ⟨t, ht, hpend, hinv⟩ := hostAction_accepted a { st with pending := rest }
    exact ⟨t, (step_action hp).trans ht, hpend, fun h => hinv (h.setPort rest st.response)⟩

end Sys2Proof.Machine

open Sys2Proof Sys2Proof.Machine

/-- Settles O9: what a host action or a command can do to the state keeps each clause of the invariant. -/
theorem stepKeepsTheInvariant : Obligations.StepKeepsTheInvariant := by
  intro st t hst ht
  obtain ⟨t', ht', -, hinv⟩ := step_accepted st
  cases ht.symm.trans ht'
  exact hinv hst

/-- Settles O7: the engine waits without an action, and every action answers a next state with the rest of the list. -/
theorem everyHostActionIsAccepted : Obligations.EveryHostActionIsAccepted := by
  intro st
  obtain ⟨t, ht, hpend, -⟩ := step_accepted st
  exact ⟨step_waiting, t, ht, hpend⟩

/-- Settles O8: the state is zero after reset, for DCAP 4096 as for any other that R6 allows. -/
theorem resetMeetsTheInvariant : Obligations.ResetMeetsTheInvariant :=
  ⟨fun _ hc => State.resetWith_inv hc, State.resetWith_inv (by decide : Config.dcapMin ≤ Config.dcap)⟩

end

section
/-! PROOFS. What each command and each CSR access of the host does to the state, and with it the family of the state
(10_state.md): the step runs the decoded command (R22, R97), reads and writes of a CSR (R21 to R33), the bits of STATUS (R23),
and which commands set a valid flag or change RK, NR and X (R24, R41, R44, R45). -/
namespace Sys2Proof.Machine

/-! ### How a command ends -/

/-- How a command with the operands of `st` can end: it raises an error, or it completes with a state of which `P` holds. -/
inductive Ends (st : State) (P : State → Prop) : Result → Prop where
  | raises (e : ErrorKind) : Ends st P (raise e st)
  | completes {u : State} (h : P u) : Ends st P (complete u)

theorem require_ends {st : State} {P : State → Prop} {c : Prop} [Decidable c] {e : ErrorKind} {rest : c → Result}
    (h : ∀ hc, Ends st P (rest hc)) : Ends st P (require c e st rest) := by
  by_cases hc : c
  · rw [require_pos st e rest hc]; exact h hc
  · rw [require_neg st e rest hc]; exact .raises e

theorem attempt_ends {st : State} {P : State → Prop} {α : Type} {r : Except ErrorKind α} {rest : α → Result}
    (h : ∀ a, Ends st P (rest a)) : Ends st P (attempt r st rest) := by
  cases r with
  | ok a => exact h a
  | error e => exact .raises e

/-- The state after a command differs from the old one in ERR alone, or is the completed state with ERR zero. -/
theorem Ends.next {st t : State} {P : State → Prop} (h : Ends st P (.next t)) :
    (∃ e : ErrorKind, t = st.setErr e.code) ∨ ∃ u, P u ∧ t = u.setErr 0#3 := by
  generalize hr : Host.Outcome.next t = r at h
  cases h with
  | raises e => cases hr; exact .inl ⟨e, rfl⟩
  | completes hu => cases hr; exact .inr ⟨_, hu, rfl⟩

/-! ### Which command completes with which update -/

/-- The commands that write a valid flag (R24): the four that load a register file, and RST. -/
def writesValidFlag : Instr → Bool
  | .rst | .kexp | .lds | .sinit | .ldw => true
  | _ => false

/-- A command that writes no valid flag is none of the five. -/
theorem ne_of_writesValidFlag {i : Instr} (h : writesValidFlag i = false) :
    i ≠ .rst ∧ i ≠ .kexp ∧ i ≠ .lds ∧ i ≠ .sinit ∧ i ≠ .ldw := by
  refine ⟨?_, ?_, ?_, ?_, ?_⟩ <;> (rintro rfl; cases h)

/-- The updates that a given command can complete with, before `ERR <- 0`: those of `CommandUpdate`, with the command
named. -/
inductive UpdateOf (st : State) : Instr → State → Prop where
  | nop : UpdateOf st .nop st
  | rst : UpdateOf st .rst st.resetEngine
  | kexp (rk n) : UpdateOf st .kexp (st.loadSchedule rk n)
  | lds (b) : UpdateOf st .lds (st.loadS b)
  | sinit (x) : UpdateOf st .sinit (st.loadX x)
  | ldw (v) : UpdateOf st .ldw (st.loadW v)
  /-- SINC writes the block counter. -/
  | sinc (c) : UpdateOf st .sinc (st.setX (st.x.set 12 c))
  /-- SAPPLY writes the block counter and outputs. -/
  | sapply (c v) : UpdateOf st .sapply ((st.setX (st.x.set 12 c)).out v)
  /-- A step on S. -/
  | stepS {i} (b) (h : writesValidFlag i = false) : UpdateOf st i (st.setS b)
  /-- A step on W. -/
  | stepW {i} (v) (h : writesValidFlag i = false) : UpdateOf st i (st.setW v)
  /-- Nothing but output. -/
  | output {i} (v) (h : writesValidFlag i = false) (ho : i.producesNoOutput = false) : UpdateOf st i (st.out v)

/-- Every command, in every state, raises an error or completes with an update of its own. -/
theorem exec_ends (i : Instr) (st : State) : Ends st (UpdateOf st i) (exec i st) := by
  cases i with
  | nop => exact .completes .nop
  | rst => exact .completes .rst
  | kexp => exact require_ends fun _ => attempt_ends fun _ => .completes (.kexp _ _)
  | lds => exact require_ends fun _ => require_ends fun _ => .completes (.lds _)
  | sinit => exact require_ends fun _ => require_ends fun _ => attempt_ends fun x => .completes (.sinit x)
  | ldw => exact require_ends fun _ => .completes (.ldw _)
  | sinc => exact require_ends fun _ => .completes (.sinc _)
  | sapply => exact require_ends fun _ => require_ends fun _ => .completes (.sapply _ _)
  | ark r => exact require_ends fun _ => require_ends fun _ => .completes (.stepS _ rfl)
  | subb | isubb | shrow | ishrow | mixc | imixc => exact require_ends fun _ => .completes (.stepS _ rfl)
  | qr a b c d => exact require_ends fun _ => require_ends fun _ => .completes (.stepW _ rfl)
  | drnd | ffwd => exact require_ends fun _ => .completes (.stepW _ rfl)
  | sts | serw | sblk => exact require_ends fun _ => .completes (.output _ rfl rfl)
  | strk | pad => exact require_ends fun _ => require_ends fun _ => .completes (.output _ rfl rfl)
  | unpad => exact require_ends fun _ => attempt_ends fun m => .completes (.output m rfl rfl)
  | encb | decb =>
    exact require_ends fun _ => require_ends fun _ => require_ends fun _ => .completes (.output _ rfl rfl)
  | cbce =>
    exact require_ends fun _ => require_ends fun _ => require_ends fun _ => require_ends fun _ =>
      .completes (.output _ rfl rfl)
  | cbcd =>
    exact require_ends fun _ => require_ends fun _ => require_ends fun _ => require_ends fun _ =>
      attempt_ends fun m => .completes (.output m rfl rfl)

/-- A command that answers `t` wrote an error code to ERR and nothing else (R300), or completed with an update of its own
(R301). -/
theorem exec_next {i : Instr} {st t : State} (h : exec i st = .next t) :
    (∃ e : ErrorKind, t = st.setErr e.code) ∨ ∃ u, UpdateOf st i u ∧ t = u.setErr 0#3 :=
  (h ▸ exec_ends i st).next

/-! ### What the updates do to the valid flags, RK, NR and X -/

section
variable {i : Instr} {st u : State}

/-- RST clears the valid flags, a load sets its own, and every other update leaves all four (R24). -/
theorem UpdateOf.validFlags (h : UpdateOf st i u) :
    (u.rkv = true ↔ i ≠ .rst ∧ (st.rkv = true ∨ i = .kexp)) ∧ (u.sv = true ↔ i ≠ .rst ∧ (st.sv = true ∨ i = .lds))
    ∧ (u.xv = true ↔ i ≠ .rst ∧ (st.xv = true ∨ i = .sinit)) ∧ (u.wv = true ↔ i ≠ .rst ∧ (st.wv = true ∨ i = .ldw)) := by
  cases h with
  | nop | rst | kexp | lds | sinit | ldw | sinc | sapply => simp
  | stepS _ h | stepW _ h | output _ h =>
    obtain ⟨hrst, hkexp, hlds, hsinit, hldw⟩ := ne_of_writesValidFlag h
    simp [hrst, hkexp, hlds, hsinit, hldw]

/-- Only KEXP and RST touch the schedule (R41). -/
theorem UpdateOf.schedule_eq (h : UpdateOf st i u) (hr : i ≠ .rst) (hk : i ≠ .kexp) :
    u.rk = st.rk ∧ u.nr = st.nr ∧ u.rkv = st.rkv := by
  cases h with
  | rst => exact absurd rfl hr
  | kexp => exact absurd rfl hk
  | nop | lds | sinit | ldw | sinc | sapply | stepS | stepW | output => exact ⟨rfl, rfl, rfl⟩

/-- Within a session X keeps every word but the block counter, X[12] (R45, R230). -/
theorem UpdateOf.stream_eq (h : UpdateOf st i u) (hr : i ≠ .rst) (hs : i ≠ .sinit) :
    u.xv = st.xv ∧ ∀ j, (hj : j < 16) → j ≠ 12 → u.x[j] = st.x[j] := by
  cases h with
  | rst => exact absurd rfl hr
  | sinit => exact absurd rfl hs
  | sinc c | sapply c => exact ⟨rfl, fun j hj h12 => Vector.getElem_set_ne (by decide) hj h12.symm⟩
  | nop | kexp | lds | ldw | stepS | stepW | output => exact ⟨rfl, fun _ _ _ => rfl⟩

/-- Only SINIT, SINC, SAPPLY and RST touch X (R44, R45). -/
theorem UpdateOf.x_eq (h : UpdateOf st i u) (hr : i ≠ .rst) (hs : i ≠ .sinit) (hc : i ≠ .sinc) (ha : i ≠ .sapply) :
    u.x = st.x := by
  cases h with
  | rst => exact absurd rfl hr
  | sinit => exact absurd rfl hs
  | sinc => exact absurd rfl hc
  | sapply => exact absurd rfl ha
  | nop | kexp | lds | ldw | stepS | stepW | output => rfl

end

/-- RST raises no error (R281), so a command that answers a nonzero ERR is another one. -/
theorem ne_rst_of_err {i : Instr} {st t : State} (h : exec i st = .next t) (ht : t.err ≠ 0#3) : i ≠ .rst := by
  rintro rfl
  cases h
  exact ht rfl

/-! ### A write of CMD -/

section
variable {w : Word} {st : State}

theorem runWord_of_decode {i : Instr} (h : decode w = .ok i) : runWord w st = exec i st := by
  simp [runWord, h]

/-- A word that is no command raises `IllegalCommand` (R97). -/
theorem runWord_of_no_command (h : ∀ i, decode w ≠ .ok i) : runWord w st = .next (st.setErr 6#3) := by
  cases hd : decode w with
  | ok i => exact absurd hd (h i)
  | error e => simp [runWord, hd, raise, ErrorKind.code]

end

/-! ### The CSR accesses of a step -/

/-- CMD is CSR number 0 and no other (R21). -/
theorem ofNumber_eq_cmd_iff {n : Nat} : Csr.ofNumber n = some .cmd ↔ n = 0 := by
  constructor
  · intro h
    unfold Csr.ofNumber at h
    split at h
    case h_1 => rfl
    all_goals cases h
  · rintro rfl; rfl

/-- A number above 0x0A names no CSR (R21). -/
theorem ofNumber_eq_none {n : Nat} (h : 0x0A < n) : Csr.ofNumber n = none := by
  unfold Csr.ofNumber
  split
  case h_12 => rfl
  all_goals omega

section
variable {st : State} {n : Nat} {v w : Word} {rest : List HostAction}

theorem step_readCsr (h : st.pending = .readCsr n :: rest) :
    step st = .next { st with pending := rest, response := some (.csr (st.readCsr n)) } := step_action h

theorem step_writeCmd (h : st.pending = .writeCsr 0x00 w :: rest) :
    step st = runWord w { st with pending := rest, response := none } := step_action h

theorem step_writeCsr (h : st.pending = .writeCsr n v :: rest) (hn : n ≠ 0) :
    step st = .next (State.writeCsr { st with pending := rest, response := none } n v) := by
  rw [step_action h]
  exact if_neg (mt ofNumber_eq_cmd_iff.mp hn)

theorem State.readCsr_above (h : 0x0A < n) : st.readCsr n = 0#32 := by
  simp [State.readCsr, ofNumber_eq_none h]

/-- A write of a read-only CSR or of a number above 0x0A is ignored (R21). -/
theorem State.writeCsr_ignored (h : n = 0x01 ∨ n = 0x02 ∨ 0x08 ≤ n) : st.writeCsr n v = st := by
  by_cases hn : 0x0A < n
  · simp [State.writeCsr, ofNumber_eq_none hn]
  · obtain rfl | rfl | rfl | rfl | rfl : n = 1 ∨ n = 2 ∨ n = 8 ∨ n = 9 ∨ n = 10 := by omega
    all_goals rfl

end

/-- The bits of STATUS, from the five flags up to the zeros (R23). -/
theorem getLsbD_statusWord (st : State) (k : Nat) :
    st.statusWord.getLsbD k = if k = 0 then st.rkv else if k = 1 then st.sv else if k = 2 then st.xv
      else if k = 3 then st.wv else if k = 4 then st.ef else false := by
  simp only [State.statusWord, BitVec.getLsbD_append]
  match k with
  | 0 | 1 | 2 | 3 | 4 | k + 5 => simp

end Sys2Proof.Machine

open Sys2Proof Sys2Proof.Machine

/-- Settles O56: a failing command writes ERR alone, and a completing one has the flags of its update. -/
theorem validFlagsFollowTheirCommands : Obligations.ValidFlagsFollowTheirCommands := by
  intro i st t h
  rcases exec_next h with ⟨e, rfl⟩ | ⟨u, hu, rfl⟩
  · have hr : i ≠ .rst := ne_rst_of_err h e.code_ne_zero
    simp [hr, e.code_ne_zero]
  · simpa using hu.validFlags

/-- Settles O59: a failing command writes ERR alone, and a completing one keeps what its update does not name. -/
theorem sessionsKeepScheduleAndStreamState : Obligations.SessionsKeepScheduleAndStreamState := by
  intro i st t hr h
  rcases exec_next h with ⟨e, rfl⟩ | ⟨u, hu, rfl⟩
  · exact ⟨fun _ => ⟨rfl, rfl, rfl⟩, fun _ => ⟨rfl, fun _ _ _ => rfl⟩, fun _ _ _ => rfl⟩
  · exact ⟨fun hk => hu.schedule_eq hr (hk.resolve_right (· rfl)), fun hs => hu.stream_eq hr (hs.resolve_right (· rfl)),
      hu.x_eq hr⟩

/-- Settles O6: the step takes the write off the host's list and runs the word. -/
theorem stepRunsTheDecodedCommand : Obligations.StepRunsTheDecodedCommand := by
  intro st w rest hp
  exact ⟨fun i hi => (step_writeCmd hp).trans (runWord_of_decode hi),
    fun hn => (step_writeCmd hp).trans (runWord_of_no_command hn)⟩

/-- Settles O11: the value answered is `readCsr n`, which computes at each number that names a CSR. -/
theorem csrReadReturnsTheValue : Obligations.CsrReadReturnsTheValue := by
  intro st n rest hp
  refine ⟨st.readCsr n, step_readCsr hp, ?_, ?_, ?_, ?_, ?_, ?_, ?_, ?_, ?_, ?_, ?_, State.readCsr_above⟩
  all_goals rintro rfl; rfl

/-- Settles O12: a write of any CSR but CMD is `writeCsr n v`, which stores or ignores the value. -/
theorem csrWriteStoresOrIsIgnored : Obligations.CsrWriteStoresOrIsIgnored := by
  intro st n v rest hp
  refine ⟨?_, ?_, ?_, ?_, ?_, fun hn => ?_⟩
  case refine_6 => rw [step_writeCsr hp (by omega), State.writeCsr_ignored hn]
  all_goals rintro rfl; exact step_writeCsr hp (by decide)

/-- Settles O15: a read of STATUS computes its view of the flags. -/
theorem statusIsAViewOfFlagsAndErr : Obligations.StatusIsAViewOfFlagsAndErr :=
  getLsbD_statusWord

end

section
/-! PROOFS. The family of the memory (20_memory.md): a host read and a host write of a buffer byte (R61 to R63), and the
output buffer after a command that has nothing to output (R68). -/
namespace Sys2Proof.Machine

/-! ### The byte accesses of a step -/

/-- What a canonical buffer reads as after a write of one byte (R62). -/
theorem Memory.read_write {m : Memory} (h : m.wf) (i : Nat) (v : Byte) (a : Nat) :
    (m.write i v).read a = if a = i then v else m.read a := by
  split
  · next ha => rw [ha, Memory.read_write_same m i v h]
  · next ha => exact Memory.read_write_other m i a v (Ne.symm ha)

/-- The five buffers are canonical where the invariant holds. -/
theorem State.Inv.buffer_wf {st : State} (h : st.Inv) (b : Buffer) : (st.buffer b).wf := by
  cases b with
  | key => exact h.keyForm.1
  | iv => exact h.ivForm.1
  | nonce => exact h.nonceForm.1
  | din => exact h.dinForm.1
  | dout => exact h.doutForm.1

/-- The host cannot write DOUT, at whatever index (R63). -/
theorem State.writeByte_dout (st : State) (i : Nat) (v : Byte) : st.writeByte .dout i v = st := ite_self st

section
variable {st : State} {b : Buffer} {i : Nat} {v : Byte} {rest : List HostAction}

theorem step_readByte (h : st.pending = .readByte b i :: rest) :
    step st = .next { st with pending := rest, response := some (.byte (st.readByte b i)) } := step_action h

theorem step_writeByte (h : st.pending = .writeByte b i v :: rest) :
    step st = .next (State.writeByte { st with pending := rest, response := none } b i v) := step_action h

end

/-! ### The output buffer after a command -/

/-- A completing command without output leaves DOUT and OLEN (R68). -/
theorem UpdateOf.output_eq {i : Instr} {st u : State} (h : UpdateOf st i u) (hn : i.producesNoOutput = true) :
    u.dout = st.dout ∧ u.olen = st.olen := by
  cases h with
  | rst | sapply => cases hn
  | output _ _ ho => cases hn.symm.trans ho
  | nop | kexp | lds | sinit | ldw | sinc | stepS | stepW => exact ⟨rfl, rfl⟩

end Sys2Proof.Machine

open Sys2Proof Sys2Proof.Machine

/-- Settles O14: the buffer after the write is `Memory.write` of the one before, which the invariant makes canonical. -/
theorem bufferWriteSetsOneByte : Obligations.BufferWriteSetsOneByte := by
  intro st i v rest b hst hp
  have hwf : (st.buffer b).wf := hst.buffer_wf b
  refine ⟨(st.buffer b).write i v, Memory.wf_write _ i v hwf, Memory.read_write hwf i v, ?_, ?_, ?_, ?_, ?_⟩
  case refine_5 => rintro rfl; rw [step_writeByte hp, State.writeByte_dout]
  all_goals rintro rfl; exact step_writeByte hp

/-- Settles O58: a failing command writes ERR alone, one without output completes with an update that keeps DOUT and OLEN,
and RST clears both. -/
theorem outputIsKeptWithoutOutput : Obligations.OutputIsKeptWithoutOutput := by
  intro i st t h
  refine ⟨fun hn => ?_, ?_⟩
  · rcases exec_next h with ⟨e, rfl⟩ | ⟨u, hu, rfl⟩
    · exact ⟨rfl, rfl⟩
    · exact hu.output_eq (hn.resolve_left (· rfl))
  · rintro rfl
    cases h
    exact ⟨rfl, rfl⟩

/-- Settles O13: the byte answered is `readByte b i`, which compares the index with the size of each buffer. -/
theorem bufferReadReturnsTheByte : Obligations.BufferReadReturnsTheByte := by
  intro st i rest b hp
  refine ⟨st.readByte b i, step_readByte hp, ?_, ?_, ?_, ?_, ?_⟩
  all_goals rintro rfl; rfl

end

section
/-! PROOFS. The family of the encoding (30_encoding.md): decoding and encoding agree (R95 to R97), the words that decode are
those of the opcode table (R96), and a word that decodes to no command raises `IllegalCommand` (R97, R296). -/
namespace Sys2Proof

/-! ### Bit fields -/

section
variable {k m n s t N : Nat} {x y : BitVec N}

theorem extractLsb'_eq_iff_getLsbD :
    x.extractLsb' s n = y.extractLsb' s n ↔ ∀ i < n, x.getLsbD (s + i) = y.getLsbD (s + i) := by
  simp +contextual [BitVec.eq_of_getLsbD_eq_iff]

/-- Two words agree on a field when they agree on its high and its low part. -/
theorem extractLsb'_eq_iff_parts (n : Nat) (ht : t = s + n) (hk : k = n + m) :
    x.extractLsb' s k = y.extractLsb' s k ↔
      x.extractLsb' t m = y.extractLsb' t m ∧ x.extractLsb' s n = y.extractLsb' s n := by
  subst ht hk
  simp only [extractLsb'_eq_iff_getLsbD, Nat.add_assoc]
  constructor
  · exact fun h => ⟨fun i hi => h (n + i) (by omega), fun i hi => h i (by omega)⟩
  · rintro ⟨hhigh, hlow⟩ i hi
    by_cases hn : i < n
    · exact hlow i hn
    · obtain ⟨j, rfl⟩ := Nat.exists_eq_add_of_le (Nat.le_of_not_lt hn)
      exact hhigh j (by omega)

/-- A mask keeps a field where it is all ones. -/
theorem extractLsb'_and_of_ones (h : y.extractLsb' s n = BitVec.allOnes n) :
    (x &&& y).extractLsb' s n = x.extractLsb' s n := by
  rw [BitVec.extractLsb'_and, h, BitVec.and_allOnes]

/-- A mask clears a field where it is all zeros. -/
theorem extractLsb'_and_of_zeros (h : y.extractLsb' s n = 0#n) : (x &&& y).extractLsb' s n = 0#n := by
  rw [BitVec.extractLsb'_and, h, BitVec.and_zero]

theorem extractLsb'_setWidth_of_ge (h : N ≤ s) : (x.setWidth k).extractLsb' s n = 0#n := by
  ext i hi
  simp [BitVec.getLsbD_of_ge x (s + i) (by omega)]

end

/-- Two words are equal when their zero fields, their arguments and their opcodes are (R91). -/
theorem word_eq_iff {v w : Word} : v = w ↔ v.extractLsb' 24 8 = w.extractLsb' 24 8
    ∧ v.extractLsb' 8 16 = w.extractLsb' 8 16 ∧ v.extractLsb' 0 8 = w.extractLsb' 0 8 := by
  rw [← and_assoc, ← extractLsb'_eq_iff_parts 16 (k := 24) rfl rfl, ← extractLsb'_eq_iff_parts 8 (k := 32) rfl rfl,
    BitVec.extractLsb'_eq_self, BitVec.extractLsb'_eq_self]

/-! ### The decoder by formats -/

/-- The argument bits that the format requires to be zero are zero (R92, R93). -/
def Format.argOk (w : Word) : Format → Prop
  | .n _ => w.extractLsb' 8 16 = 0#16
  | .r _ => w.extractLsb' 12 12 = 0#12
  | .q _ => True

/-- The command with its operands taken from the fields of the word (R92 to R94). -/
def Format.read (w : Word) : Format → Instr
  | .n i => i
  | .r g => g (w.extractLsb' 8 4)
  | .q g => g (w.extractLsb' 8 4) (w.extractLsb' 12 4) (w.extractLsb' 16 4) (w.extractLsb' 20 4)

/-- What the decoder accepts, and as which command (R97). -/
theorem decode_eq_ok_iff {w : Word} {i : Instr} : decode w = .ok i ↔ w.extractLsb' 24 8 = 0#8
    ∧ ∃ f, opcodeMap (w.extractLsb' 0 8) = some f ∧ f.argOk w ∧ f.read w = i := by
  by_cases hz : w.extractLsb' 24 8 = 0#8
  case neg => simp [decode, hz]
  cases hm : opcodeMap (w.extractLsb' 0 8) with
  | none => simp [decode, hz, hm]
  | some f =>
    cases f with
    | n j => by_cases ha : w.extractLsb' 8 16 = 0#16 <;> simp [decode, hz, hm, ha, Format.argOk, Format.read]
    | r g => by_cases ha : w.extractLsb' 12 12 = 0#12 <;> simp [decode, hz, hm, ha, Format.argOk, Format.read]
    | q g => simp [decode, hz, hm, Format.argOk, Format.read]

/-! ### The round trip -/

/-- The fields of QR's word are its operands (R94, R95). -/
theorem read_encode_qr (a b c d : BitVec 4) : Format.read (encode (.qr a b c d)) (.q .qr) = .qr a b c d := by
  simp only [Format.read, Instr.qr.injEq]
  refine ⟨?_, ?_, ?_, ?_⟩ <;>
    (refine BitVec.eq_of_getLsbD_eq fun i hi => ?_
     interval_cases i <;> simp [encode, opcode])

/-- Every command decodes from its own word. -/
theorem decode_encode (i : Instr) : decode (encode i) = .ok i := by
  cases i with
  | strk r | ark r => revert r; decide
  | qr a b c d =>
    obtain ⟨hz, ho⟩ := Laws.CommandWord.qr a b c d
    exact decode_eq_ok_iff.mpr ⟨hz, .q .qr, congrArg opcodeMap ho, trivial, read_encode_qr a b c d⟩
  | _ => rfl

section
variable {o : Byte} {f : Format} {v w : Word} {i : Instr}

/-- A command read by the format of an opcode has that opcode. -/
theorem opcode_read (h : opcodeMap o = some f) (w : Word) : opcode (f.read w) = o := by
  unfold opcodeMap at h
  split at h
  all_goals cases h
  all_goals rfl

/-- Two words of one format that read as one command have the same argument: the fields that are read are equal, and the
others zero. -/
theorem arg_eq_of_read_eq (h : opcodeMap o = some f) (hv : f.argOk v) (hw : f.argOk w) (hr : f.read v = f.read w) :
    v.extractLsb' 8 16 = w.extractLsb' 8 16 := by
  unfold opcodeMap at h
  split at h
  case h_4 | h_7 =>
    cases h
    injection hr with hr
    exact (extractLsb'_eq_iff_parts 4 rfl rfl).mpr ⟨Eq.trans (b := 0#12) hv hw.symm, hr⟩
  case h_23 =>
    cases h
    injection hr with ha hb hc hd
    have hcd : v.extractLsb' 16 8 = w.extractLsb' 16 8 := (extractLsb'_eq_iff_parts 4 rfl rfl).mpr ⟨hd, hc⟩
    have hbcd : v.extractLsb' 12 12 = w.extractLsb' 12 12 := (extractLsb'_eq_iff_parts 4 rfl rfl).mpr ⟨hcd, hb⟩
    exact (extractLsb'_eq_iff_parts 4 rfl rfl).mpr ⟨hbcd, ha⟩
  all_goals cases h
  all_goals exact Eq.trans (b := 0#16) hv hw.symm

/-- No two words decode to one command. -/
theorem decode_injective (hv : decode v = .ok i) (hw : decode w = .ok i) : v = w := by
  obtain ⟨hvz, f, hvm, hva, hvr⟩ := decode_eq_ok_iff.mp hv
  obtain ⟨hwz, g, hwm, hwa, hwr⟩ := decode_eq_ok_iff.mp hw
  have ho : v.extractLsb' 0 8 = w.extractLsb' 0 8 := by
    rw [← opcode_read hvm v, hvr, ← hwr, opcode_read hwm w]
  obtain rfl : f = g := Option.some.inj (by rw [← hvm, ho, hwm])
  exact word_eq_iff.mpr ⟨hvz.trans hwz.symm, arg_eq_of_read_eq hvm hva hwa (hvr.trans hwr.symm), ho⟩

theorem decode_eq_ok_iff_encode_eq : decode w = .ok i ↔ encode i = w := by
  constructor
  · exact decode_injective (decode_encode i)
  · rintro rfl; exact decode_encode i

end

/-! ### The opcode table -/

/-- The mask of the table's rows of a format (spec/opcode_table.json). -/
def Format.mask : Format → Word
  | .n _ => 0xFFFFFFFF#32
  | .r _ => 0xFFFFF0FF#32
  | .q _ => 0xFF0000FF#32

/-- A mask covers the opcode, the zero field and the argument bits that must be zero. -/
theorem and_mask_eq_iff {f : Format} {w : Word} {o : Byte} : w &&& f.mask = o.setWidth 32 ↔
    w.extractLsb' 24 8 = 0#8 ∧ f.argOk w ∧ w.extractLsb' 0 8 = o := by
  rw [word_eq_iff]
  cases f with
  | n _ | q _ =>
    simp (disch := decide) [Format.mask, Format.argOk, extractLsb'_and_of_ones, extractLsb'_and_of_zeros,
      extractLsb'_setWidth_of_ge, BitVec.extractLsb'_setWidth_of_le]
  | r _ =>
    rw [extractLsb'_eq_iff_parts 4 (s := 8) (k := 16) (m := 12) rfl rfl]
    simp (disch := decide) [Format.mask, Format.argOk, extractLsb'_and_of_ones, extractLsb'_and_of_zeros,
      extractLsb'_setWidth_of_ge, BitVec.extractLsb'_setWidth_of_le]

/-- The table's row of an opcode: the match value is the opcode alone. -/
def opcodeRow (o : Byte) : Option (Word × Word) :=
  (opcodeMap o).map fun f => (o.setWidth 32, f.mask)

theorem opcodeRow_of_mem : ∀ row ∈ Machine.opcodeRows, opcodeRow (row.1.setWidth 8) = some row :=
  List.forall_iff_forall_mem.mp (by decide)

theorem row_mem_of_opcodeMap {o : Byte} {f : Format} (h : opcodeMap o = some f) :
    (o.setWidth 32, f.mask) ∈ Machine.opcodeRows := by
  unfold opcodeMap at h
  split at h
  all_goals cases h
  all_goals decide

/-- The table holds the rows of the opcodes of the map, and no others (R96). -/
theorem mem_opcodeRows_iff {row : Word × Word} :
    row ∈ Machine.opcodeRows ↔ ∃ o f, opcodeMap o = some f ∧ (o.setWidth 32, f.mask) = row := by
  constructor
  · intro h
    exact ⟨_, Option.map_eq_some_iff.mp (opcodeRow_of_mem row h)⟩
  · rintro ⟨o, f, h, rfl⟩
    exact row_mem_of_opcodeMap h

end Sys2Proof

open Sys2Proof Sys2Proof.Machine

/-- Settles O1: the decoder inverts the encoder, and it is injective on the words it accepts. -/
theorem decodeAndEncodeAgree : Obligations.DecodeAndEncodeAgree :=
  fun _ _ => decode_eq_ok_iff_encode_eq

/-- Settles O2: a word agrees with the row of an opcode under the row's mask when it has that opcode and zeros where the
opcode's format requires them. -/
theorem decoderAcceptsTheRowsOfTheOpcodeTable : Obligations.DecoderAcceptsTheRowsOfTheOpcodeTable := by
  intro w
  constructor
  · rintro ⟨i, hi⟩
    obtain ⟨hz, f, hm, ha, -⟩ := decode_eq_ok_iff.mp hi
    exact ⟨_, mem_opcodeRows_iff.mpr ⟨_, f, hm, rfl⟩, and_mask_eq_iff.mpr ⟨hz, ha, rfl⟩⟩
  · rintro ⟨row, hrow, hw⟩
    obtain ⟨o, f, hm, rfl⟩ := mem_opcodeRows_iff.mp hrow
    obtain ⟨hz, ha, rfl⟩ := and_mask_eq_iff.mp hw
    exact ⟨f.read w, decode_eq_ok_iff.mpr ⟨hz, f, hm, ha, rfl⟩⟩

/-- Settles O3: by the round trip, a word that is no command's word decodes to none. -/
theorem wordOfNoCommandRaisesIllegalCommand : Obligations.WordOfNoCommandRaisesIllegalCommand :=
  fun _ _ h => runWord_of_no_command fun i hi => h i (decode_eq_ok_iff_encode_eq.mp hi)

/-- Settles O5: each word is what the encoder gives for its command. -/
theorem writtenOutWordsDecode : Obligations.WrittenOutWordsDecode := by
  refine ⟨?_, ?_, ?_, ?_, ?_⟩
  all_goals exact decode_eq_ok_iff_encode_eq.mpr rfl

end

section
/-! PROOFS. The field arithmetic of the tables (40_tables.md): doubling is additive, every byte is a sum of doubles of 1 (R120),
and so `gmul` is determined by what it does to 1, to a double and to a sum; each law of R121 follows by that induction. -/
namespace Sys2Proof.Machine

/-! ### Doubling -/

@[simp] theorem xtime_zero : xtime 0#8 = 0#8 := by decide

@[simp] theorem xtime_xor (a b : Byte) : xtime (a ^^^ b) = xtime a ^^^ xtime b := by
  unfold xtime
  rw [BitVec.getLsbD_xor, BitVec.shiftLeft_xor_distrib]
  cases a.getLsbD 7 <;> cases b.getLsbD 7
  case false.false => rfl
  case false.true => exact BitVec.xor_assoc ..
  case true.false => simp only [Bool.xor_false, if_true, Bool.false_eq_true, if_false]; ac_rfl
  case true.true =>
    calc a <<< 1 ^^^ b <<< 1
      _ = a <<< 1 ^^^ b <<< 1 ^^^ (0x1B#8 ^^^ 0x1B#8) := by simp
      _ = a <<< 1 ^^^ 0x1B#8 ^^^ (b <<< 1 ^^^ 0x1B#8) := by ac_rfl

@[simp] theorem iterate_xtime_xor (n : Nat) (a b : Byte) : xtime^[n] (a ^^^ b) = xtime^[n] a ^^^ xtime^[n] b := by
  induction n generalizing a b with
  | zero => rfl
  | succ n ih => simp [ih]

/-- Doubling 1 does not reduce before the eighth time: the doubles of 1 are the powers of x (R120). -/
theorem iterate_xtime_one : ∀ n < 8, xtime^[n] 1#8 = BitVec.twoPow 8 n := by decide

/-! ### The product bit by bit -/

/-- The part of `gmul a k` that comes from the bits of `k` below a place. -/
def gmulBelow (a k : Byte) : Nat → Byte
  | 0 => 0#8
  | n + 1 => gmulBelow a k n ^^^ if k.getLsbD n then xtime^[n] a else 0#8

theorem foldl_range_eq_gmulBelow (a k : Byte) (n : Nat) :
    (List.range n).foldl (fun acc i => if k.getLsbD i then acc ^^^ xtime^[i] a else acc) 0#8 = gmulBelow a k n := by
  induction n with
  | zero => rfl
  | succ n ih =>
    rw [List.range_succ, List.foldl_append, ih, gmulBelow]
    cases h : k.getLsbD n <;> simp [h]

theorem gmul_eq_gmulBelow (a k : Byte) : gmul a k = gmulBelow a k 8 := foldl_range_eq_gmulBelow a k 8

theorem gmulBelow_xor_left (a b k : Byte) (n : Nat) :
    gmulBelow (a ^^^ b) k n = gmulBelow a k n ^^^ gmulBelow b k n := by
  induction n with
  | zero => exact BitVec.xor_self.symm
  | succ n ih =>
    rw [gmulBelow, gmulBelow, gmulBelow, ih]
    split
    · rw [iterate_xtime_xor]; ac_rfl
    · simp only [BitVec.xor_zero]

theorem gmulBelow_xtime_left (a k : Byte) (n : Nat) : gmulBelow (xtime a) k n = xtime (gmulBelow a k n) := by
  induction n with
  | zero => exact xtime_zero.symm
  | succ n ih =>
    rw [gmulBelow, gmulBelow, xtime_xor, ih, apply_ite xtime, xtime_zero, Function.Commute.iterate_self xtime n a]

/-- 1 times the bits of `k` below a place is those bits, as the doubles of 1 are the powers of x. -/
theorem getLsbD_gmulBelow_one (k : Byte) {n : Nat} (hn : n ≤ 8) (j : Nat) :
    (gmulBelow 1#8 k n).getLsbD j = (decide (j < n) && k.getLsbD j) := by
  induction n with
  | zero => simp [gmulBelow]
  | succ n ih =>
    rw [gmulBelow, BitVec.getLsbD_xor, ih (by omega), iterate_xtime_one n (by omega)]
    by_cases hj : j = n
    · subst hj
      cases k.getLsbD j <;> simp [BitVec.getLsbD_twoPow]; omega
    · have hlt : j < n + 1 ↔ j < n := by omega
      cases k.getLsbD n <;> simp [BitVec.getLsbD_twoPow, hlt, Ne.symm hj]

/-! ### Multiplication -/

@[simp] theorem gmul_one_left (k : Byte) : gmul 1#8 k = k := by
  refine BitVec.eq_of_getLsbD_eq fun j hj => ?_
  rw [gmul_eq_gmulBelow, getLsbD_gmulBelow_one k le_rfl, decide_eq_true hj, Bool.true_and]

@[simp] theorem gmul_xor_left (a b k : Byte) : gmul (a ^^^ b) k = gmul a k ^^^ gmul b k := by
  simp only [gmul_eq_gmulBelow, gmulBelow_xor_left]

@[simp] theorem gmul_xtime_left (a k : Byte) : gmul (xtime a) k = xtime (gmul a k) := by
  simp only [gmul_eq_gmulBelow, gmulBelow_xtime_left]

@[simp] theorem gmul_zero_left (k : Byte) : gmul 0#8 k = 0#8 := by
  have h := gmul_xor_left 0#8 0#8 k
  rwa [BitVec.xor_self, BitVec.xor_self] at h

/-- Every byte is a sum of doubles of 1 (R120): what holds of 0 and of 1 and is kept by doubling and by XOR holds of every
byte. -/
theorem byte_induction {P : Byte → Prop} (zero : P 0#8) (one : P 1#8) (double : ∀ a, P a → P (xtime a))
    (add : ∀ a b, P a → P b → P (a ^^^ b)) (a : Byte) : P a := by
  have hdoubles (n : Nat) : P (xtime^[n] 1#8) := Function.Iterate.rec P one double n
  have hsum (n : Nat) : P (gmulBelow 1#8 a n) := by
    induction n with
    | zero => exact zero
    | succ n ih =>
      refine add _ _ ih ?_
      split
      · exact hdoubles n
      · exact zero
  rw [← gmul_one_left a, gmul_eq_gmulBelow]
  exact hsum 8

/-! Each law on the right follows from the laws on the left, by the sum of doubles that the left factor is. -/

@[simp] theorem gmul_zero_right (a : Byte) : gmul a 0#8 = 0#8 := by
  induction a using byte_induction with
  | zero => exact gmul_zero_left 0#8
  | one => exact gmul_one_left 0#8
  | double a ih => rw [gmul_xtime_left, ih, xtime_zero]
  | add a b iha ihb => rw [gmul_xor_left, iha, ihb, BitVec.xor_self]

@[simp] theorem gmul_one_right (a : Byte) : gmul a 1#8 = a := by
  induction a using byte_induction with
  | zero => exact gmul_zero_left 1#8
  | one => exact gmul_one_left 1#8
  | double a ih => rw [gmul_xtime_left, ih]
  | add a b iha ihb => rw [gmul_xor_left, iha, ihb]

@[simp] theorem gmul_xtime_right (a k : Byte) : gmul a (xtime k) = xtime (gmul a k) := by
  induction a using byte_induction with
  | zero => simp only [gmul_zero_left, xtime_zero]
  | one => simp only [gmul_one_left]
  | double a ih => rw [gmul_xtime_left, gmul_xtime_left, ih]
  | add a b iha ihb => rw [gmul_xor_left, gmul_xor_left, xtime_xor, iha, ihb]

@[simp] theorem gmul_xor_right (a k l : Byte) : gmul a (k ^^^ l) = gmul a k ^^^ gmul a l := by
  induction a using byte_induction with
  | zero => simp only [gmul_zero_left, BitVec.xor_self]
  | one => simp only [gmul_one_left]
  | double a ih => simp only [gmul_xtime_left, ih, xtime_xor]
  | add a b iha ihb => simp only [gmul_xor_left, iha, ihb]; ac_rfl

theorem gmul_comm (a b : Byte) : gmul a b = gmul b a := by
  induction a using byte_induction with
  | zero => rw [gmul_zero_left, gmul_zero_right]
  | one => rw [gmul_one_left, gmul_one_right]
  | double a ih => rw [gmul_xtime_left, gmul_xtime_right, ih]
  | add a c iha ihc => rw [gmul_xor_left, gmul_xor_right, iha, ihc]

theorem gmul_assoc (a b c : Byte) : gmul (gmul a b) c = gmul a (gmul b c) := by
  induction a using byte_induction with
  | zero => simp only [gmul_zero_left]
  | one => simp only [gmul_one_left]
  | double a ih => simp only [gmul_xtime_left, ih]
  | add a d iha ihd => simp only [gmul_xor_left, iha, ihd]

/-- Multiplication by the element x is doubling (R120), as x is the double of 1. -/
theorem gmul_two_right (a : Byte) : gmul a 2#8 = xtime a :=
  calc gmul a 2#8
    _ = gmul a (xtime 1#8) := congrArg (gmul a) (by decide)
    _ = xtime a := by rw [gmul_xtime_right, gmul_one_right]

end Sys2Proof.Machine

open Sys2Proof Sys2Proof.Machine

/-- Settles O18: the left factor is a sum of doubles of 1, and each law holds of 0 and 1 and is kept by doubling and by XOR. -/
theorem fieldMultiplicationLaws : Obligations.FieldMultiplicationLaws :=
  fun a b c => ⟨gmul_comm a b, gmul_assoc a b c, gmul_xor_right a b c, gmul_one_right a, gmul_zero_right a, gmul_two_right a⟩

end

section
/-! PROOFS. The family of the key schedule (41_key_schedule.md): the words of `expand` (R135 to R138), the schedule that KEXP
stores (R141), and the round key that STRK outputs (R142). -/
namespace Sys2Proof.Machine

/-! ### The key's own words -/

/-- Word `i` of an operand is four bytes of its buffer (R74). -/
theorem beWord_slice (m : Memory) {n i : Nat} (h : 4 * i + 3 < n) :
    beWord (m.slice 0 n) i = be32 (m.read (4 * i)) (m.read (4 * i + 1)) (m.read (4 * i + 2)) (m.read (4 * i + 3)) := by
  have hbyte (j : Nat) (hj : j < n) : byteAt (m.slice 0 n) j = m.read j := by
    rw [byteAt, Memory.getD_slice, if_pos hj, Nat.zero_add]
  rw [beWord, hbyte _ (by omega), hbyte _ (by omega), hbyte _ (by omega), hbyte _ h]

@[simp] theorem length_keyWords (key : Bytes) (nk : Nat) : (keyWords key nk).length = nk := by simp [keyWords]

theorem getD_keyWords (key : Bytes) {nk i : Nat} (h : i < nk) : (keyWords key nk).getD i 0#32 = beWord key i := by
  simp [keyWords, h]

/-! ### The recurrence -/

/-- The schedule grows at its end: no word of it is written again (R138). -/
theorem extendSchedule_eq_append (nk k : Nat) (w : List Word) : ∃ u, extendSchedule nk k w = w ++ u := by
  induction k generalizing w with
  | zero => exact ⟨[], (List.append_nil w).symm⟩
  | succ k ih =>
    obtain ⟨u, hu⟩ := ih (w ++ [nextScheduleWord nk w])
    exact ⟨nextScheduleWord nk w :: u, hu.trans (List.append_assoc ..)⟩

/-- The words the schedule grows from stay in their places (R138). -/
theorem getD_extendSchedule_of_lt (nk k : Nat) {i : Nat} {w : List Word} (h : i < w.length) :
    (extendSchedule nk k w).getD i 0#32 = w.getD i 0#32 := by
  obtain ⟨u, hu⟩ := extendSchedule_eq_append nk k w
  rw [hu, List.getD_append w u 0#32 i h]

/-- Every further word of the schedule is the next one after the words before it (R138). -/
theorem getD_extendSchedule_of_le (nk : Nat) {k i : Nat} {w : List Word} (hw : w.length ≤ i) (hi : i < w.length + k) :
    (extendSchedule nk k w).getD i 0#32 = nextScheduleWord nk ((extendSchedule nk k w).take i) := by
  induction k generalizing w with
  | zero => omega
  | succ k ih =>
    by_cases hfirst : i = w.length
    · obtain ⟨u, hu⟩ := extendSchedule_eq_append nk k (w ++ [nextScheduleWord nk w])
      rw [extendSchedule, hu]
      simp [hfirst]
    · exact ih (w := w ++ [nextScheduleWord nk w]) (by simp; omega) (by simp; omega)

/-- The round constant word is the round constant in the top byte (R127). -/
theorem rconWord_eq (j : Nat) : rconWord j = (rcon j).setWidth 32 <<< 24 := by
  refine BitVec.eq_of_getLsbD_eq fun i hi => ?_
  rw [rconWord, getLsbD_be32, BitVec.getLsbD_shiftLeft, BitVec.getLsbD_setWidth]
  by_cases htop : i < 24
  · simp [htop]
  · simp [htop, hi, show ¬i < 8 by omega, show ¬i < 16 by omega, show i - 24 < 32 by omega]

/-- The recurrence of R138, read off the words of a list below index `i`. -/
theorem nextScheduleWord_take {nk i : Nat} {v : List Word} (hnk : 0 < nk) (hi : nk ≤ i) (hv : i ≤ v.length) :
    nextScheduleWord nk (v.take i) = v.getD (i - nk) 0#32 ^^^
      (if i % nk = 0 then subWord (rotl32 (v.getD (i - 1) 0#32) 8) ^^^ (rcon (i / nk)).setWidth 32 <<< 24
       else if nk = 8 ∧ i % nk = 4 then subWord (v.getD (i - 1) 0#32)
       else v.getD (i - 1) 0#32) := by
  have hlen : (v.take i).length = i := List.length_take_of_le hv
  have hbelow (j : Nat) (hj : j < i) : (v.take i).getD j 0#32 = v.getD j 0#32 := by
    simp [List.getElem?_take_of_lt hj]
  simp only [nextScheduleWord, hlen, hbelow (i - nk) (by omega), hbelow (i - 1) (by omega), rconWord_eq]

/-! ### `expand` -/

/-- The schedule's words for a key of a legal length: the key's words, extended to NR + 1 round keys (R137). -/
def scheduleWords (key : Bytes) : List Word :=
  extendSchedule (key.length / 4) (4 * (key.length / 4 + 6 + 1) - key.length / 4) (keyWords key (key.length / 4))

@[simp] theorem length_scheduleWords (key : Bytes) : (scheduleWords key).length = 4 * (key.length / 4 + 6 + 1) := by
  rw [scheduleWords, length_extendSchedule, length_keyWords]
  omega

section
variable {key : Bytes}

theorem expand_eq_ok (h : key.length = 16 ∨ key.length = 24 ∨ key.length = 32) :
    expand key = .ok (scheduleWords key, key.length / 4 + 6) := if_pos h

theorem expand_eq_error (h : ¬(key.length = 16 ∨ key.length = 24 ∨ key.length = 32)) :
    expand key = .error .invalidKeySize := if_neg h

/-- The schedule starts with the words of the key (R136). -/
theorem getD_scheduleWords_of_lt {i : Nat} (h : i < key.length / 4) : (scheduleWords key).getD i 0#32 = beWord key i := by
  rw [scheduleWords, getD_extendSchedule_of_lt _ _ (by rwa [length_keyWords]), getD_keyWords key h]

/-- The words after the key's own follow the recurrence (R138). -/
theorem getD_scheduleWords_of_le {i : Nat} (hi : key.length / 4 ≤ i) (hlen : i < 4 * (key.length / 4 + 6 + 1)) :
    (scheduleWords key).getD i 0#32 = nextScheduleWord (key.length / 4) ((scheduleWords key).take i) :=
  getD_extendSchedule_of_le _ (by rwa [length_keyWords]) (by rw [length_keyWords]; omega)

end

/-! ### KEXP -/

/-- RK holds a schedule that fits it word by word, with zeros above (R40, R141). -/
theorem getD_scheduleFile {w : List Word} (h : w.length ≤ 60) (i : Nat) :
    (scheduleFile w).getD i 0#32 = w.getD i 0#32 := by
  by_cases hi : i < 60
  · simp [scheduleFile, Vector.getD, hi]
  · rw [scheduleFile_getD_eq_zero (by omega), List.getD_eq_default _ _ (by omega)]

@[simp] theorem length_keyOperand (st : State) : st.keyOperand.length = st.klen.toNat := Memory.length_slice _ _ _

/-- KEXP on a key of a legal length stores what `expand` gives (R141). -/
theorem exec_kexp_of_klen {st : State} (h : st.klen = 16#32 ∨ st.klen = 24#32 ∨ st.klen = 32#32) :
    exec .kexp st = .next { st with
      err := 0#3, rk := scheduleFile (scheduleWords st.keyOperand),
      nr := BitVec.ofNat 4 (st.klen.toNat / 4 + 6), rkv := true } := by
  have hlen : st.keyOperand.length = 16 ∨ st.keyOperand.length = 24 ∨ st.keyOperand.length = 32 := by
    rcases h with h | h | h <;> simp [h]
  calc exec .kexp st
    _ = attempt (expand st.keyOperand) st fun r =>
          complete (st.loadSchedule (scheduleFile r.1) (BitVec.ofNat 4 r.2)) := require_pos st _ _ h
    _ = _ := by rw [expand_eq_ok hlen, length_keyOperand]; rfl

/-! ### STRK -/

/-- What `Out` leaves in DOUT: the bytes of the sequence, zeros after them (R67). -/
theorem State.out_holds {st : State} {v : Bytes} {f : Nat → Byte} (h : ∀ i < v.length, v.getD i 0#8 = f i) :
    (st.out v).dout.holds v.length f := by
  obtain ⟨hwf, hread⟩ := st.out_reads v
  refine ⟨hwf, fun i => ?_⟩
  rw [hread]
  split_ifs with hi
  · exact h i hi
  · exact List.getD_eq_default _ _ (Nat.le_of_not_lt hi)

/-- Byte `i` of round key `r` is byte `i % 4` of its word `i / 4`, most significant first (R139, R142). -/
theorem getD_roundKeyBytes (rk : Words 60) (r i : Nat) (h : i < 16) :
    (roundKeyBytes rk r).getD i 0#8 = byteOf (rk.getD (4 * r + i / 4) 0#32) (i % 4) := by
  interval_cases i <;> rfl

end Sys2Proof.Machine

open Sys2Proof Sys2Proof.Machine

/-- Settles O19: the key's Nk words are extended to the words of NR + 1 round keys. -/
theorem expandChecksTheLength : Obligations.ExpandChecksTheLength := by
  intro key
  refine ⟨fun h => ⟨scheduleWords key, expand_eq_ok h, length_scheduleWords key⟩, fun h16 h24 h32 => ?_⟩
  exact expand_eq_error (by simp [h16, h24, h32])

/-- Settles O20: RK holds the words of `expand`, which are the key's own and then those of the recurrence. -/
theorem kexpStoresTheSchedule : Obligations.KexpStoresTheSchedule := by
  refine ⟨rfl, fun st => ⟨fun hk => ?_, fun h16 h24 h32 => ?_⟩⟩
  · have hlen : st.klen.toNat = 16 ∨ st.klen.toNat = 24 ∨ st.klen.toNat = 32 := by
      rcases hk with h | h | h <;> simp [h]
    have hwords : (scheduleWords st.keyOperand).length = 4 * (st.klen.toNat / 4 + 6 + 1) := by simp
    have hfile := getD_scheduleFile (w := scheduleWords st.keyOperand) (by omega)
    refine ⟨scheduleFile (scheduleWords st.keyOperand), exec_kexp_of_klen hk, fun i hi => ?_, fun i hi hn => ?_,
      fun i hi _ => scheduleFile_getD_eq_zero (hwords.trans_le hi)⟩
    · rw [hfile, getD_scheduleWords_of_lt (by rwa [length_keyOperand])]
      exact beWord_slice st.key (by omega)
    · have hnext := getD_scheduleWords_of_le (key := st.keyOperand) (i := i) (by rwa [length_keyOperand])
        (by rwa [length_keyOperand])
      simp only [hfile]
      rw [hnext, length_keyOperand, nextScheduleWord_take (by omega) hi (by omega)]
  · exact require_neg st .invalidKeySize _ (by simp [h16, h24, h32])

/-- Settles O21: STRK outputs the 16 bytes of the round key after it has checked RKV and NR. -/
theorem strkOutputsTheRoundKey : Obligations.StrkOutputsTheRoundKey := by
  intro st r
  refine ⟨rfl, fun hv hr => ?_, fun h => ?_⟩
  · refine ⟨(st.out (roundKeyBytes st.rk r.toNat)).dout, ?_, State.out_holds (getD_roundKeyBytes st.rk r.toNat)⟩
    exact (require_pos st _ _ hv).trans (require_pos st _ _ hr)
  · by_cases hv : st.rkv = true
    · have hr : st.nr < r := h.resolve_left (by simp [hv])
      exact (require_pos st _ _ hv).trans (require_neg st .illegalCommand _ (BitVec.not_le.mpr hr))
    · exact require_neg st .illegalCommand _ hv

end

section
/-! PROOFS. The steps of the block transform (42_block_transform.md sections 3 to 5), byte by byte: what each step does to the
byte in row r of column c (R156, R160, R164, R166), and that a step and its inverse undo each other in either order. -/
namespace Sys2Proof.Machine

/-! ### Bytes by row -/

/-- Row r of a packed column, for a row that is a variable (R153). -/
theorem byteOf_be32_row (f : Nat → Byte) {r : Nat} (hr : r < 4) : byteOf (be32 (f 0) (f 1) (f 2) (f 3)) r = f r := by
  obtain ⟨h0, h1, h2, h3⟩ := byteOf_be32 (f 0) (f 1) (f 2) (f 3)
  interval_cases r
  · exact h0
  · exact h1
  · exact h2
  · exact h3

theorem words4_getD (v : Words 4) {c : Nat} (h : c < 4) : v.getD c 0#32 = v[c] := by simp [Vector.getD, h]

/-! ### AddRoundKey -/

@[simp] theorem getElem_addRoundKey (v : Words 4) (rk : Words 60) (r c : Nat) (h : c < 4) :
    (addRoundKey v rk r)[c] = v[c] ^^^ rk.getD (4 * r + c) 0#32 := by
  rw [addRoundKey, Vector.getElem_ofFn]; rfl

/-- AddRoundKey is its own inverse (R154). -/
theorem addRoundKey_addRoundKey (v : Words 4) (rk : Words 60) (r : Nat) : addRoundKey (addRoundKey v rk r) rk r = v :=
  words4_ext fun c hc => by
    rw [getElem_addRoundKey, getElem_addRoundKey, BitVec.xor_assoc, BitVec.xor_self, BitVec.xor_zero]

/-! ### SubBytes -/

theorem byteOf_subWord (w : Word) {r : Nat} (hr : r < 4) : byteOf (subWord w) r = sbox (byteOf w r) :=
  byteOf_be32_row (fun r => sbox (byteOf w r)) hr

theorem byteOf_invSubWord (w : Word) {r : Nat} (hr : r < 4) : byteOf (invSubWord w) r = isbox (byteOf w r) :=
  byteOf_be32_row (fun r => isbox (byteOf w r)) hr

@[simp] theorem getElem_subBytes (v : Words 4) (c : Nat) (h : c < 4) : (subBytes v)[c] = subWord v[c] := by
  rw [subBytes, Vector.getElem_ofFn]; rfl

@[simp] theorem getElem_invSubBytes (v : Words 4) (c : Nat) (h : c < 4) : (invSubBytes v)[c] = invSubWord v[c] := by
  rw [invSubBytes, Vector.getElem_ofFn]; rfl

/-- The tables of R123 and R125 are inverse permutations of the 256 byte values (R124). -/
theorem isbox_sbox : ∀ a : Byte, isbox (sbox a) = a := by decide +kernel

theorem sbox_isbox : ∀ a : Byte, sbox (isbox a) = a := by decide +kernel

theorem invSubBytes_subBytes (v : Words 4) : invSubBytes (subBytes v) = v :=
  words4_ext fun c hc => word_ext fun r hr => by
    rw [getElem_invSubBytes, getElem_subBytes, byteOf_invSubWord _ hr, byteOf_subWord _ hr, isbox_sbox]

theorem subBytes_invSubBytes (v : Words 4) : subBytes (invSubBytes v) = v :=
  words4_ext fun c hc => word_ext fun r hr => by
    rw [getElem_subBytes, getElem_invSubBytes, byteOf_subWord _ hr, byteOf_invSubWord _ hr, sbox_isbox]

/-! ### ShiftRows -/

section
variable (v : Words 4) {c r : Nat} (hc : c < 4) (hr : r < 4)
include hr

/-- Row r rotates left by r columns (R160). -/
theorem byteOf_shiftRows :
    byteOf (shiftRows v)[c] r = byteOf (v[(c + r) % 4]'(Nat.mod_lt _ (by decide))) r := by
  rw [shiftRows, Vector.getElem_ofFn]
  refine Eq.trans ?_ (byteOf_be32_row (fun r => byteOf (v[(c + r) % 4]'(Nat.mod_lt _ (by decide))) r) hr)
  interval_cases c <;> rfl

/-- Row r rotates right by r columns (R160). -/
theorem byteOf_invShiftRows :
    byteOf (invShiftRows v)[c] r = byteOf (v[(c + 4 - r) % 4]'(Nat.mod_lt _ (by decide))) r := by
  rw [invShiftRows, Vector.getElem_ofFn]
  refine Eq.trans ?_ (byteOf_be32_row (fun r => byteOf (v[(c + 4 - r) % 4]'(Nat.mod_lt _ (by decide))) r) hr)
  interval_cases c <;> rfl

end

theorem invShiftRows_shiftRows (v : Words 4) : invShiftRows (shiftRows v) = v :=
  words4_ext fun c hc => word_ext fun r hr => by
    have hback : ((c + 4 - r) % 4 + r) % 4 = c := by omega
    rw [byteOf_invShiftRows _ hc hr, byteOf_shiftRows _ _ hr]
    simp only [hback]

theorem shiftRows_invShiftRows (v : Words 4) : shiftRows (invShiftRows v) = v :=
  words4_ext fun c hc => word_ext fun r hr => by
    have hback : ((c + r) % 4 + 4 - r) % 4 = c := by omega
    rw [byteOf_shiftRows _ hc hr, byteOf_invShiftRows _ _ hr]
    simp only [hback]

/-! ### MixColumns -/

/-- The product over GF(2^8) of a column and a matrix row: the XOR of the four products. -/
def rowProduct (a k : Nat → Byte) : Byte :=
  gmul (a 0) (k 0) ^^^ gmul (a 1) (k 1) ^^^ gmul (a 2) (k 2) ^^^ gmul (a 3) (k 3)

/-- Row r of the circulant matrix with first row `m`: its entry in column k is the first row's entry (k - r) mod 4. -/
def circulantRow (m : List Byte) (r k : Nat) : Byte := m.getD ((4 + k - r) % 4) 0#8

/-- A matrix row times a matrix times a column is one row, the row of the matrix product, times the column. -/
theorem rowProduct_rowProduct (a k : Nat → Byte) (m : Nat → Nat → Byte) :
    rowProduct (fun j => rowProduct a (m j)) k = rowProduct a fun i => rowProduct (fun j => m j i) k := by
  simp only [rowProduct, gmul_xor_left, gmul_xor_right, gmul_assoc]
  ac_rfl

/-- A row of the identity matrix picks the column's byte of its row. -/
theorem rowProduct_unit (a k : Nat → Byte) {r : Nat} (hr : r < 4) (hk : ∀ i < 4, k i = if i = r then 1#8 else 0#8) :
    rowProduct a k = a r := by
  rw [rowProduct, hk 0 (by decide), hk 1 (by decide), hk 2 (by decide), hk 3 (by decide)]
  interval_cases r <;> simp

/-- MixColumn is the circulant matrix with first row 2, 3, 1, 1 (R164). -/
theorem byteOf_mixWord (w : Word) {r : Nat} (hr : r < 4) :
    byteOf (mixWord w) r = rowProduct (byteOf w) (circulantRow [2, 3, 1, 1] r) := by
  rw [← byteOf_be32_row (fun r => rowProduct (byteOf w) (circulantRow [2, 3, 1, 1] r)) hr, mixWord, mixColumn]
  simp [rowProduct, circulantRow]

/-- InvMixColumn is the circulant matrix with first row 14, 11, 13, 9 (R166). -/
theorem byteOf_invMixWord (w : Word) {r : Nat} (hr : r < 4) :
    byteOf (invMixWord w) r = rowProduct (byteOf w) (circulantRow [14, 11, 13, 9] r) :=
  byteOf_be32_row (fun r => rowProduct (byteOf w) (circulantRow [14, 11, 13, 9] r)) hr

/-- The product of the two matrices is the identity, in either order (R166). -/
theorem circulant_product_eq_one : ∀ r < 4, ∀ i < 4,
    rowProduct (fun j => circulantRow [2, 3, 1, 1] j i) (circulantRow [14, 11, 13, 9] r) = (if i = r then 1#8 else 0#8)
    ∧ rowProduct (fun j => circulantRow [14, 11, 13, 9] j i) (circulantRow [2, 3, 1, 1] r)
      = (if i = r then 1#8 else 0#8) := by
  decide

/-- The product reads no byte beyond row 3 of the column. -/
theorem rowProduct_congr {a b : Nat → Byte} (k : Nat → Byte) (h : ∀ j < 4, a j = b j) :
    rowProduct a k = rowProduct b k := by
  rw [rowProduct, h 0 (by decide), h 1 (by decide), h 2 (by decide), h 3 (by decide), rowProduct]

@[simp] theorem invMixWord_mixWord (w : Word) : invMixWord (mixWord w) = w := word_ext fun r hr => by
  rw [byteOf_invMixWord _ hr, rowProduct_congr _ fun j hj => byteOf_mixWord w hj, rowProduct_rowProduct]
  exact rowProduct_unit _ _ hr fun i hi => (circulant_product_eq_one r hr i hi).1

@[simp] theorem mixWord_invMixWord (w : Word) : mixWord (invMixWord w) = w := word_ext fun r hr => by
  rw [byteOf_mixWord _ hr, rowProduct_congr _ fun j hj => byteOf_invMixWord w hj, rowProduct_rowProduct]
  exact rowProduct_unit _ _ hr fun i hi => (circulant_product_eq_one r hr i hi).2

@[simp] theorem getElem_mixColumns (v : Words 4) (c : Nat) (h : c < 4) : (mixColumns v)[c] = mixWord v[c] := by
  rw [mixColumns, Vector.getElem_ofFn]; rfl

@[simp] theorem getElem_invMixColumns (v : Words 4) (c : Nat) (h : c < 4) : (invMixColumns v)[c] = invMixWord v[c] := by
  rw [invMixColumns, Vector.getElem_ofFn]; rfl

theorem invMixColumns_mixColumns (v : Words 4) : invMixColumns (mixColumns v) = v :=
  words4_ext fun c hc => by rw [getElem_invMixColumns, getElem_mixColumns, invMixWord_mixWord]

theorem mixColumns_invMixColumns (v : Words 4) : mixColumns (invMixColumns v) = v :=
  words4_ext fun c hc => by rw [getElem_mixColumns, getElem_invMixColumns, mixWord_invMixWord]

end Sys2Proof.Machine
end

section
/-! PROOFS. The block functions and the commands of the block transform (42_block_transform.md): the round sequences of
`encryptBlock` and `decryptBlock` (R170, R176), when each command completes and with which state (R151 to R167, R172, R175),
and the step commands that spell out ENCB (R150). -/
namespace Sys2Proof.Machine

/-! ### The round sequences -/

/-- The cipher state of `encryptBlock` after the key addition of round `r` (R170). -/
def encryptState (b : Bytes) (rk : Words 60) (r : Nat) : Words 4 :=
  (List.range' 1 r).foldl (encryptRound rk) (addRoundKey (loadState b) rk 0)

theorem encryptState_succ (b : Bytes) (rk : Words 60) (r : Nat) :
    encryptState b rk (r + 1) = encryptRound rk (encryptState b rk r) (r + 1) := by
  rw [encryptState, List.range'_1_concat, List.foldl_append, Nat.add_comm 1 r]; rfl

theorem encryptBlock_eq (b : Bytes) (rk : Words 60) (n : Nat) :
    encryptBlock b rk n = storeState (addRoundKey (shiftRows (subBytes (encryptState b rk (n - 1)))) rk n) := rfl

/-- The cipher state of `decryptBlock` with `n` rounds before the key addition of round `r` (R176). -/
def decryptState (b : Bytes) (rk : Words 60) (n r : Nat) : Words 4 :=
  (List.range' (r + 1) (n - 1 - r)).reverse.foldl (decryptRound rk)
    (invSubBytes (invShiftRows (addRoundKey (loadState b) rk n)))

theorem decryptState_last (b : Bytes) (rk : Words 60) (n : Nat) :
    decryptState b rk n (n - 1) = invSubBytes (invShiftRows (addRoundKey (loadState b) rk n)) := by
  rw [decryptState, Nat.sub_self]; rfl

theorem decryptState_of_lt (b : Bytes) (rk : Words 60) {n r : Nat} (h : r < n - 1) :
    decryptState b rk n r = decryptRound rk (decryptState b rk n (r + 1)) (r + 1) := by
  have hlen : n - 1 - r = n - 1 - (r + 1) + 1 := by omega
  rw [decryptState, hlen, List.range'_succ, List.reverse_cons, List.foldl_append]; rfl

theorem decryptBlock_eq (b : Bytes) (rk : Words 60) (n : Nat) :
    decryptBlock b rk n = storeState (addRoundKey (decryptState b rk n 0) rk 0) := rfl

/-! ### The commands -/

/-- Byte 4c + r of DIN is row r of column c of the loaded block (R151, R153). -/
theorem byteOf_loadState_blockOperand (st : State) {c r : Nat} (hc : c < 4) (hr : r < 4) :
    byteOf (loadState st.blockOperand)[c] r = st.din.read (4 * c + r) := by
  rw [getElem_loadState, State.blockOperand, beWord_slice _ (by omega)]
  exact byteOf_be32_row (fun r => st.din.read (4 * c + r)) hr

theorem State.blockOperand_eq (st : State) : st.blockOperand = (List.range 16).map fun i => st.din.read i := by
  simp [State.blockOperand, Memory.slice]

/-- A command that completes with a block to output leaves its 16 bytes in DOUT (R67). -/
theorem complete_out_block (st : State) {v : Bytes} {f : Nat → Byte} (hlen : v.length = 16)
    (hv : ∀ i < 16, v.getD i 0#8 = f i) :
    ∃ d, complete (st.out v) = .next { st with err := 0#3, dout := d, olen := 16#32 } ∧ d.holds 16 f := by
  refine ⟨(st.out v).dout, ?_, ?_⟩
  · rw [complete, State.out, hlen]; rfl
  · have h := State.out_holds (st := st) (v := v) (f := f) (by rwa [hlen])
    rwa [hlen] at h

section
variable (st : State)

theorem exec_lds_of_fits (hd : st.dlen ≤ st.cap) (h16 : st.dlen = 16#32) :
    exec .lds st = .next ((st.loadS (loadState st.blockOperand)).setErr 0#3) :=
  (require_pos st _ _ hd).trans (require_pos st _ _ h16)

theorem exec_sts_of_loaded (hs : st.sv = true) : exec .sts st = complete (st.out (storeState st.s)) :=
  require_pos st _ _ hs

theorem exec_ark_of_le {r : BitVec 4} (hk : st.rkv = true) (hs : st.sv = true) (hr : r ≤ st.nr) :
    exec (.ark r) st = .next ((st.setS (addRoundKey st.s st.rk r.toNat)).setErr 0#3) :=
  (require_pos st _ _ ⟨hk, hs⟩).trans (require_pos st _ _ hr)

theorem exec_ark_illegal {r : BitVec 4} (h : st.rkv = false ∨ st.sv = false ∨ st.nr < r) :
    exec (.ark r) st = .next (st.setErr 6#3) := by
  by_cases hv : st.rkv = true ∧ st.sv = true
  · have hr : ¬r ≤ st.nr := BitVec.not_le.mpr (by simpa [hv] using h)
    exact (require_pos st _ _ hv).trans (require_neg st .illegalCommand _ hr)
  · exact require_neg st .illegalCommand _ hv

variable (f : Words 4 → Words 4)

theorem stepOnS_of_loaded (hs : st.sv = true) : stepOnS f st = .next ((st.setS (f st.s)).setErr 0#3) :=
  require_pos st _ _ hs

theorem stepOnS_illegal (hs : st.sv = false) : stepOnS f st = .next (st.setErr 6#3) :=
  require_neg st .illegalCommand _ (by simp [hs])

end

section
variable (st : State) {f : Bytes → Words 60 → Nat → Bytes}

theorem blockCommand_of_fits (hk : st.rkv = true) (hd : st.dlen ≤ st.cap) (h16 : st.dlen = 16#32) :
    blockCommand f st = complete (st.out (f ((List.range 16).map fun i => st.din.read i) st.rk st.nr.toNat)) := by
  rw [← st.blockOperand_eq]
  exact ((require_pos st _ _ hk).trans (require_pos st _ _ hd)).trans (require_pos st _ _ h16)

/-- A block command leaves the 16 bytes of the image in DOUT and touches nothing else (R172, R175). -/
theorem blockCommand_outputs (hf : ∀ b rk n, (f b rk n).length = 16) (hk : st.rkv = true) (hd : st.dlen ≤ st.cap)
    (h16 : st.dlen = 16#32) :
    ∃ d, blockCommand f st = .next { st with err := 0#3, dout := d, olen := 16#32 }
      ∧ d.holds 16 fun i => (f ((List.range 16).map fun i => st.din.read i) st.rk st.nr.toNat).getD i 0#8 := by
  rw [blockCommand_of_fits st hk hd h16]
  exact complete_out_block st (hf _ _ _) fun _ _ => rfl

theorem blockCommand_illegal (h : st.rkv = false ∨ st.cap < st.dlen) : blockCommand f st = .next (st.setErr 6#3) := by
  by_cases hk : st.rkv = true
  · have hd : ¬st.dlen ≤ st.cap := BitVec.not_le.mpr (by simpa [hk] using h)
    exact (require_pos st _ _ hk).trans (require_neg st .illegalCommand _ hd)
  · exact require_neg st .illegalCommand _ hk

theorem blockCommand_invalidBlockSize (hk : st.rkv = true) (hd : st.dlen ≤ st.cap) (h16 : st.dlen ≠ 16#32) :
    blockCommand f st = .next (st.setErr 3#3) :=
  ((require_pos st _ _ hk).trans (require_pos st _ _ hd)).trans (require_neg st .invalidBlockSize _ h16)

end

/-- No schedule has a round 15 (R32, R155). -/
theorem State.Inv.nr_lt {st : State} (h : st.Inv) : st.nr < 15#4 := by
  by_cases hk : st.rkv = true
  · rcases h.nrSome hk with hn | hn | hn <;> rw [hn] <;> decide
  · rw [h.nrNone (by simpa using hk)]; decide

/-! ### Command sequences -/

theorem execSeq_cons {i : Instr} {l : List Instr} {st t : State} (h : exec i st = .next t) :
    execSeq (i :: l) st = execSeq l t := by rw [execSeq, h]

theorem execSeq_append {l m : List Instr} {st t : State} (h : execSeq l st = .next t) :
    execSeq (l ++ m) st = execSeq m t := by
  induction l generalizing st with
  | nil => cases h; rfl
  | cons i l ih =>
    obtain ⟨u, hu, -⟩ := exec_effect i st
    rw [List.cons_append, execSeq_cons hu]
    exact ih ((execSeq_cons hu).symm.trans h)

theorem execSeq_pair {i j : Instr} {st t u : State} (hi : exec i st = .next t) (hj : exec j t = .next u) :
    execSeq [i, j] st = .next u := (execSeq_cons hi).trans (execSeq_cons hj)

/-- Two step commands whose steps undo each other restore S. -/
theorem execSeq_pair_of_inverse {i j : Instr} {f g : Words 4 → Words 4} (hi : ∀ u, exec i u = stepOnS f u)
    (hj : ∀ u, exec j u = stepOnS g u) (hgf : ∀ v, g (f v) = v) {st : State} (hs : st.sv = true) :
    execSeq [i, j] st = .next { st with err := 0#3 } := by
  have hsecond := stepOnS_of_loaded ((st.setS (f st.s)).setErr 0#3) g hs
  rw [State.setErr_s, State.setS_s, hgf] at hsecond
  exact execSeq_pair ((hi st).trans (stepOnS_of_loaded st f hs)) ((hj _).trans hsecond)

/-! ### The step commands that spell out ENCB -/

/-- The state in the middle of the step commands: what it was before LDS, with ERR zero and the cipher state `v` in S. -/
def State.stepping (st : State) (v : Words 4) : State := (st.loadS v).setErr 0#3

section
variable {st : State}

theorem exec_ark_stepping {r : Nat} (hk : st.rkv = true) (hr : r ≤ st.nr.toNat) (v : Words 4) :
    exec (.ark (BitVec.ofNat 4 r)) (st.stepping v) = .next (st.stepping (addRoundKey v st.rk r)) := by
  have hmod : (BitVec.ofNat 4 r).toNat = r := by
    rw [BitVec.toNat_ofNat]; exact Nat.mod_eq_of_lt (hr.trans_lt st.nr.isLt)
  have hle : BitVec.ofNat 4 r ≤ (st.stepping v).nr := by rw [BitVec.le_def, hmod]; exact hr
  have hark := exec_ark_of_le (st.stepping v) hk rfl hle
  rwa [hmod] at hark

/-- SUBB, SHROW, MIXC, ARK r run one full round (R170). -/
theorem execSeq_round {r : Nat} (hk : st.rkv = true) (hr : r ≤ st.nr.toNat) (v : Words 4) :
    execSeq [.subb, .shrow, .mixc, .ark (BitVec.ofNat 4 r)] (st.stepping v)
      = .next (st.stepping (encryptRound st.rk v r)) :=
  calc execSeq [.subb, .shrow, .mixc, .ark (BitVec.ofNat 4 r)] (st.stepping v)
    _ = execSeq [.ark (BitVec.ofNat 4 r)] (st.stepping (mixColumns (shiftRows (subBytes v)))) := rfl
    _ = .next (st.stepping (encryptRound st.rk v r)) := execSeq_cons (exec_ark_stepping hk hr _)

/-- The full rounds of a list run one after the other. -/
theorem execSeq_rounds (hk : st.rkv = true) (l : List Nat) (hl : ∀ r ∈ l, r ≤ st.nr.toNat) (v : Words 4) :
    execSeq (l.flatMap fun r => [.subb, .shrow, .mixc, .ark (BitVec.ofNat 4 r)]) (st.stepping v)
      = .next (st.stepping (l.foldl (encryptRound st.rk) v)) := by
  induction l generalizing v with
  | nil => rfl
  | cons r l ih =>
    rw [List.flatMap_cons, execSeq_append (execSeq_round hk (hl r (by simp)) v)]
    exact ih (fun r hr => hl r (by simp [hr])) _

/-- The last round, without MixColumns, and the store (R170, R152). -/
theorem execSeq_lastRound {r : Nat} (hk : st.rkv = true) (hr : r ≤ st.nr.toNat) (v : Words 4) :
    let last := addRoundKey (shiftRows (subBytes v)) st.rk r
    execSeq [.subb, .shrow, .ark (BitVec.ofNat 4 r), .sts] (st.stepping v)
      = complete ((st.stepping last).out (storeState last)) :=
  let last := addRoundKey (shiftRows (subBytes v)) st.rk r
  calc execSeq [.subb, .shrow, .ark (BitVec.ofNat 4 r), .sts] (st.stepping v)
    _ = execSeq [.ark (BitVec.ofNat 4 r), .sts] (st.stepping (shiftRows (subBytes v))) := rfl
    _ = execSeq [.sts] (st.stepping last) := execSeq_cons (exec_ark_stepping hk hr _)
    _ = complete ((st.stepping last).out (storeState last)) := execSeq_cons (exec_sts_of_loaded _ rfl)

end

/-- The step commands of `encryptBlock` end with its last cipher state in S and that state's bytes in DOUT. -/
theorem execSeq_encryptSteps {st : State} (hk : st.rkv = true) (hd : st.dlen ≤ st.cap) (h16 : st.dlen = 16#32) {n : Nat}
    (hn : n ≤ st.nr.toNat) :
    let last := addRoundKey (shiftRows (subBytes (encryptState st.blockOperand st.rk (n - 1)))) st.rk n
    execSeq (encryptSteps n) st = complete ((st.stepping last).out (storeState last)) := by
  have hload : execSeq [.lds, .ark 0#4] st = .next (st.stepping (encryptState st.blockOperand st.rk 0)) := by
    rw [execSeq_cons (exec_lds_of_fits st hd h16)]
    exact execSeq_cons (exec_ark_stepping hk (Nat.zero_le _) (loadState st.blockOperand))
  have hrounds := execSeq_rounds hk (List.range' 1 (n - 1)) (fun r hr => by rw [List.mem_range'_1] at hr; omega)
    (encryptState st.blockOperand st.rk 0)
  rw [encryptSteps, List.append_assoc, execSeq_append hload, execSeq_append hrounds]
  exact execSeq_lastRound hk hn _

end Sys2Proof.Machine

open Sys2Proof Sys2Proof.Machine

/-- Settles O22: LDS checks that DLEN fits and then that it is 16. -/
theorem ldsLoadsTheBlock : Obligations.LdsLoadsTheBlock := by
  refine ⟨rfl, fun st => ⟨fun hd h16 => ?_, fun hd => ?_, fun hd h16 => ?_⟩⟩
  · exact ⟨loadState st.blockOperand, exec_lds_of_fits st hd h16,
      fun c hc r hr => byteOf_loadState_blockOperand st hc hr⟩
  · exact require_neg st .illegalCommand _ (BitVec.not_le.mpr hd)
  · exact (require_pos st _ _ hd).trans (require_neg st .invalidBlockSize _ h16)

/-- Settles O23: the output is the stored block, whose bytes are those of S by column and row. -/
theorem stsOutputsTheBlock : Obligations.StsOutputsTheBlock := by
  refine ⟨rfl, fun st => ⟨fun hs => ?_, fun hs => require_neg st .illegalCommand _ (by simp [hs])⟩⟩
  rw [exec_sts_of_loaded st hs]
  refine complete_out_block st (length_storeState st.s) fun i hi => ?_
  rw [getD_storeState st.s i hi, words4_getD]

/-- Settles O24: AddRoundKey is its own inverse, and no schedule has a round 15. -/
theorem arkXorsTheRoundKey : Obligations.ArkXorsTheRoundKey := by
  intro st r
  refine ⟨rfl, fun hk hs hr => ⟨_, exec_ark_of_le st hk hs hr, fun c hc => getElem_addRoundKey _ _ _ c hc, ?_⟩,
    exec_ark_illegal st, fun h => exec_ark_illegal st (.inr (.inr h.nr_lt))⟩
  have hsecond := exec_ark_of_le ((st.setS (addRoundKey st.s st.rk r.toNat)).setErr 0#3) hk hs hr
  rw [State.setErr_s, State.setS_s, State.setErr_rk, State.setS_rk, addRoundKey_addRoundKey] at hsecond
  exact execSeq_pair (exec_ark_of_le st hk hs hr) hsecond

/-- Settles O25: both are steps on S, and each byte of a column goes through the table. -/
theorem subbAndIsubbSubstituteEachByte : Obligations.SubbAndIsubbSubstituteEachByte := by
  refine ⟨rfl, rfl, fun st => ⟨fun hs => ⟨⟨subBytes st.s, stepOnS_of_loaded st subBytes hs, ?subb⟩,
    ⟨invSubBytes st.s, stepOnS_of_loaded st invSubBytes hs, ?isubb⟩⟩,
    fun hs => ⟨stepOnS_illegal st _ hs, stepOnS_illegal st _ hs⟩⟩⟩
  case subb => intro c hc r hr; rw [getElem_subBytes, byteOf_subWord _ hr]
  case isubb => intro c hc r hr; rw [getElem_invSubBytes, byteOf_invSubWord _ hr]

/-- Settles O26: both are steps on S, and each byte comes from the rotated column of the old S. -/
theorem shrowAndIshrowRotateRows : Obligations.ShrowAndIshrowRotateRows := by
  refine ⟨rfl, rfl, fun st => ⟨fun hs => ⟨⟨shiftRows st.s, stepOnS_of_loaded st shiftRows hs, ?shrow⟩,
    ⟨invShiftRows st.s, stepOnS_of_loaded st invShiftRows hs, ?ishrow⟩⟩,
    fun hs => ⟨stepOnS_illegal st _ hs, stepOnS_illegal st _ hs⟩⟩⟩
  case shrow => intro c hc r hr; rw [byteOf_shiftRows _ hc hr, words4_getD]
  case ishrow => intro c hc r hr; rw [byteOf_invShiftRows _ hc hr, words4_getD]

/-- Settles O27: both are steps on S, and each column is multiplied by the rows of a circulant matrix. -/
theorem mixcAndImixcMultiplyColumns : Obligations.MixcAndImixcMultiplyColumns := by
  refine ⟨rfl, rfl, fun st => ⟨fun hs => ⟨⟨mixColumns st.s, stepOnS_of_loaded st mixColumns hs, ?mixc⟩,
    ⟨invMixColumns st.s, stepOnS_of_loaded st invMixColumns hs, ?imixc⟩⟩,
    fun hs => ⟨stepOnS_illegal st _ hs, stepOnS_illegal st _ hs⟩⟩⟩
  case mixc => intro c hc r hr; rw [getElem_mixColumns]; exact byteOf_mixWord _ hr
  case imixc => intro c hc r hr; rw [getElem_invMixColumns]; exact byteOf_invMixWord _ hr

/-- Settles O28: each step and its inverse undo each other, in either order. -/
theorem stepCommandsUndoTheirInverses : Obligations.StepCommandsUndoTheirInverses := by
  intro st hs
  refine ⟨?subb, ?isubb, ?shrow, ?ishrow, ?mixc, ?imixc⟩
  case subb => exact execSeq_pair_of_inverse (fun _ => rfl) (fun _ => rfl) invSubBytes_subBytes hs
  case isubb => exact execSeq_pair_of_inverse (fun _ => rfl) (fun _ => rfl) subBytes_invSubBytes hs
  case shrow => exact execSeq_pair_of_inverse (fun _ => rfl) (fun _ => rfl) invShiftRows_shiftRows hs
  case ishrow => exact execSeq_pair_of_inverse (fun _ => rfl) (fun _ => rfl) shiftRows_invShiftRows hs
  case mixc => exact execSeq_pair_of_inverse (fun _ => rfl) (fun _ => rfl) invMixColumns_mixColumns hs
  case imixc => exact execSeq_pair_of_inverse (fun _ => rfl) (fun _ => rfl) mixColumns_invMixColumns hs

/-- Settles O29: the states of the sequence are the results of the fold over the rounds so far. -/
theorem encryptBlockFollowsTheRounds : Obligations.EncryptBlockFollowsTheRounds := by
  intro b rk n _
  refine ⟨encryptState b rk, rfl, fun r hr _ => ?_, encryptBlock_eq b rk n⟩
  obtain ⟨r, rfl⟩ := Nat.exists_eq_add_of_le' hr
  exact encryptState_succ b rk r

/-- Settles O30: the states of the sequence are the results of the fold over the rounds from n - 1 down. -/
theorem decryptBlockFollowsTheRounds : Obligations.DecryptBlockFollowsTheRounds := by
  intro b rk n _
  refine ⟨decryptState b rk n, decryptState_last b rk n, fun r hr hn => ?_, decryptBlock_eq b rk n⟩
  obtain ⟨r, rfl⟩ := Nat.exists_eq_add_of_le' hr
  exact decryptState_of_lt b rk hn

/-- Settles O32: both are block commands, with the two block functions. -/
theorem encbAndDecbOutputTheImage : Obligations.EncbAndDecbOutputTheImage :=
  ⟨rfl, rfl, fun st => ⟨fun hk hd h16 => ⟨blockCommand_outputs st length_encryptBlock hk hd h16,
      blockCommand_outputs st length_decryptBlock hk hd h16⟩,
    fun h => ⟨blockCommand_illegal st h, blockCommand_illegal st h⟩,
    fun hk hd h16 => ⟨blockCommand_invalidBlockSize st hk hd h16, blockCommand_invalidBlockSize st hk hd h16⟩⟩⟩

/-- Settles O33: the step commands run the rounds of `encryptBlock` on S, and STS outputs what ENCB does. -/
theorem stepCommandsSpellOutEncb : Obligations.StepCommandsSpellOutEncb := by
  intro st hk h16 hd
  refine ⟨_, _, blockCommand_of_fits st hk hd h16, execSeq_encryptSteps hk hd h16 le_rfl, ?_⟩
  rw [← st.blockOperand_eq]
  exact (encryptBlock_eq _ _ _).symm

end

section
/-! PROOFS. The family of the CBC mode (43_cbc_mode.md): the blocks that `cbcEncrypt` and `cbcDecrypt` concatenate (R194, R195)
and how the command CBCD ends (R196). -/
namespace Sys2Proof.Machine

/-! ### Blocks of a byte sequence -/

/-- The blocks after the first are the blocks of the rest. -/
theorem blockOf_drop (b : Bytes) (i : Nat) : blockOf (b.drop 16) i = blockOf b (i + 1) := by
  rw [blockOf, List.drop_drop, blockOf, Nat.mul_add_one, Nat.add_comm]

theorem flatMap_range_succ {α : Type} (f : Nat → List α) (k : Nat) :
    (List.range (k + 1)).flatMap f = f 0 ++ (List.range k).flatMap fun i => f (i + 1) := by
  rw [List.range_succ_eq_map, List.flatMap_cons, List.flatMap_map]

/-! ### Encryption -/

/-- Ciphertext block `i` of the padded data `p` (R194): each block is chained with the ciphertext block before it. -/
def cbcCipherBlock (rk : Words 60) (n : Nat) (iv p : Bytes) : Nat → Bytes
  | 0 => encryptBlock (xorBytes (blockOf p 0) iv) rk n
  | i + 1 => encryptBlock (xorBytes (blockOf p (i + 1)) (cbcCipherBlock rk n iv p i)) rk n

theorem cbcCipherBlock_succ (rk : Words 60) (n : Nat) (iv p : Bytes) (i : Nat) :
    cbcCipherBlock rk n iv p (i + 1) = encryptBlock (xorBytes (blockOf p (i + 1)) (cbcCipherBlock rk n iv p i)) rk n := rfl

/-- After its first block the chain goes on as a chain of its own, which starts from that ciphertext block. -/
theorem cbcCipherBlock_drop (rk : Words 60) (n : Nat) (iv p : Bytes) (i : Nat) :
    cbcCipherBlock rk n (cbcCipherBlock rk n iv p 0) (p.drop 16) i = cbcCipherBlock rk n iv p (i + 1) := by
  induction i with
  | zero => rw [cbcCipherBlock_succ, ← blockOf_drop]; rfl
  | succ i ih => rw [cbcCipherBlock_succ, blockOf_drop, ih, ← cbcCipherBlock_succ]

theorem cbcEncryptBlocks_eq_flatMap (rk : Words 60) (n k : Nat) (iv p : Bytes) :
    cbcEncryptBlocks rk n k iv p = (List.range k).flatMap (cbcCipherBlock rk n iv p) := by
  induction k generalizing iv p with
  | zero => rfl
  | succ k ih =>
    have hfirst : cbcEncryptBlocks rk n (k + 1) iv p = cbcCipherBlock rk n iv p 0
        ++ cbcEncryptBlocks rk n k (cbcCipherBlock rk n iv p 0) (p.drop 16) := rfl
    rw [hfirst, ih, flatMap_range_succ, funext (cbcCipherBlock_drop rk n iv p)]

/-- The ciphertext has the padded length, which is a multiple of 16 (R194). -/
theorem length_cbcEncrypt_eq (d : Bytes) (rk : Words 60) (n : Nat) (iv : Bytes) :
    (cbcEncrypt d rk n iv).length = (padBytes d 16).length := by
  rw [cbcEncrypt, length_cbcEncryptBlocks, length_padBytes]
  omega

/-! ### Decryption -/

/-- Plain block `i` of the ciphertext `d`, padding included (R195). -/
def cbcPlainBlock (rk : Words 60) (n : Nat) (iv d : Bytes) (i : Nat) : Bytes :=
  xorBytes (decryptBlock (blockOf d i) rk n) (if i = 0 then iv else blockOf d (i - 1))

/-- After the first block the chaining value is that ciphertext block. -/
theorem cbcPlainBlock_drop (rk : Words 60) (n : Nat) (iv d : Bytes) (i : Nat) :
    cbcPlainBlock rk n (blockOf d 0) (d.drop 16) i = cbcPlainBlock rk n iv d (i + 1) := by
  cases i with
  | zero => rw [cbcPlainBlock, blockOf_drop]; rfl
  | succ i => rw [cbcPlainBlock, blockOf_drop, Nat.add_sub_cancel, blockOf_drop]; rfl

theorem cbcDecryptBlocks_eq_flatMap (rk : Words 60) (n k : Nat) (iv d : Bytes) :
    cbcDecryptBlocks rk n k iv d = (List.range k).flatMap (cbcPlainBlock rk n iv d) := by
  induction k generalizing iv d with
  | zero => rfl
  | succ k ih =>
    have hfirst : cbcDecryptBlocks rk n (k + 1) iv d = cbcPlainBlock rk n iv d 0
        ++ cbcDecryptBlocks rk n k (blockOf d 0) (d.drop 16) := rfl
    rw [hfirst, ih, flatMap_range_succ, funext (cbcPlainBlock_drop rk n iv d)]

section
variable {d : Bytes} (rk : Words 60) (n : Nat) (iv : Bytes)

theorem cbcDecrypt_of_aligned (h0 : d.length ≠ 0) (h16 : d.length % 16 = 0) :
    cbcDecrypt d rk n iv = unpadBytes ((List.range (d.length / 16)).flatMap (cbcPlainBlock rk n iv d)) 16 := by
  rw [cbcDecrypt, if_neg (by simp [h0, h16]), cbcDecryptBlocks_eq_flatMap]

theorem cbcDecrypt_invalidCiphertextLength (h : d.length = 0 ∨ d.length % 16 ≠ 0) :
    cbcDecrypt d rk n iv = .error .invalidCiphertextLength := if_pos h

end

/-- `InvalidPadding` is the only failure of `unpad` (R211). -/
theorem eq_invalidPadding_of_unpadBytes {d : Bytes} {bs : Nat} {e : ErrorKind} (h : unpadBytes d bs = .error e) :
    e = .invalidPadding := by
  unfold unpadBytes at h
  dsimp only at h
  split_ifs at h
  all_goals cases h; rfl

/-! ### The command CBCD -/

theorem State.dataOperand_eq (st : State) : st.dataOperand = (List.range st.dlen.toNat).map fun i => st.din.read i := by
  simp [State.dataOperand, Memory.slice]

theorem State.ivOperand_eq (st : State) : st.ivOperand = (List.range 16).map fun i => st.iv.read i := by
  simp [State.ivOperand, Memory.slice]

/-- The DLEN check of R196 speaks of the register's number. -/
theorem State.dlen_aligned_iff (st : State) :
    (st.dlen ≠ 0#32 ∧ st.dlen.toNat % 16 = 0) ↔ (st.dlen.toNat ≠ 0 ∧ st.dlen.toNat % 16 = 0) :=
  and_congr_left fun _ => BitVec.toNat_ne_iff_ne.symm

section
variable (st : State)

theorem exec_cbcd_illegal (h : ¬(st.rkv = true ∧ st.dataFits)) : exec .cbcd st = .next (st.setErr 6#3) := by
  by_cases hk : st.rkv = true
  · exact (require_pos st _ _ hk).trans (require_neg st .illegalCommand _ fun hd => h ⟨hk, hd⟩)
  · exact require_neg st .illegalCommand _ hk

variable (hk : st.rkv = true) (hd : st.dataFits)
include hk hd

theorem exec_cbcd_invalidIVSize (hiv : st.ivlen ≠ 16#32) : exec .cbcd st = .next (st.setErr 2#3) :=
  ((require_pos st _ _ hk).trans (require_pos st _ _ hd)).trans (require_neg st .invalidIVSize _ hiv)

variable (hiv : st.ivlen = 16#32)
include hiv

theorem exec_cbcd_invalidCiphertextLength (h : ¬(st.dlen.toNat ≠ 0 ∧ st.dlen.toNat % 16 = 0)) :
    exec .cbcd st = .next (st.setErr 4#3) :=
  (((require_pos st _ _ hk).trans (require_pos st _ _ hd)).trans (require_pos st _ _ hiv)).trans
    (require_neg st .invalidCiphertextLength _ (mt st.dlen_aligned_iff.mp h))

/-- Past its checks CBCD does what `cbcDecrypt` answers for its operands (R196). -/
theorem exec_cbcd_of_aligned (h : st.dlen.toNat ≠ 0 ∧ st.dlen.toNat % 16 = 0) :
    exec .cbcd st = attempt (cbcDecrypt st.dataOperand st.rk st.nr.toNat st.ivOperand) st fun m => complete (st.out m) :=
  (((require_pos st _ _ hk).trans (require_pos st _ _ hd)).trans (require_pos st _ _ hiv)).trans
    (require_pos st _ _ (st.dlen_aligned_iff.mpr h))

/-- For aligned data the only failure left is that of the padding, and it exposes no byte (R196). -/
theorem exec_cbcd_invalidPadding (h : st.dlen.toNat ≠ 0 ∧ st.dlen.toNat % 16 = 0)
    (hfail : ∀ m, cbcDecrypt st.dataOperand st.rk st.nr.toNat st.ivOperand ≠ .ok m) :
    exec .cbcd st = .next (st.setErr 5#3) := by
  rw [exec_cbcd_of_aligned st hk hd hiv h]
  obtain ⟨h0, h16⟩ := h
  cases hr : cbcDecrypt st.dataOperand st.rk st.nr.toNat st.ivOperand with
  | ok m => exact absurd hr (hfail m)
  | error e =>
    rw [cbcDecrypt_of_aligned _ _ _ (by rwa [length_dataOperand]) (by rwa [length_dataOperand])] at hr
    rw [eq_invalidPadding_of_unpadBytes hr]
    rfl

end

end Sys2Proof.Machine

open Sys2Proof Sys2Proof.Machine

/-- Settles O37: the chain of the recursion, cut after its first block, is the chain of the remaining blocks. -/
theorem cbcEncryptChainsTheBlocks : Obligations.CbcEncryptChainsTheBlocks := by
  intro data iv rk n
  exact ⟨cbcCipherBlock rk n iv (padBytes data 16), length_padBytes data, rfl, fun _ => rfl,
    cbcEncryptBlocks_eq_flatMap rk n _ iv _, length_cbcEncrypt_eq data rk n iv⟩

/-- Settles O39: plain block i needs no more than the ciphertext blocks i and i - 1. -/
theorem cbcDecryptChainsTheBlocks : Obligations.CbcDecryptChainsTheBlocks :=
  fun _ iv rk n => ⟨cbcDecrypt_of_aligned rk n iv, cbcDecrypt_invalidCiphertextLength rk n iv⟩

/-- Settles O40: past the checks in their order, the result of `cbcDecrypt` decides between output and `InvalidPadding`. -/
theorem cbcdOutputsThePlaintext : Obligations.CbcdOutputsThePlaintext := by
  refine ⟨rfl, fun st => ?_⟩
  dsimp only
  rw [← st.dataOperand_eq, ← st.ivOperand_eq]
  refine ⟨fun m ⟨hk, hd⟩ hiv h hm => ⟨(st.out m).dout, ?output, State.out_holds fun _ _ => rfl⟩,
    fun ⟨hk, hd⟩ => exec_cbcd_invalidPadding st hk hd, exec_cbcd_illegal st,
    fun ⟨hk, hd⟩ => exec_cbcd_invalidIVSize st hk hd, fun ⟨hk, hd⟩ => exec_cbcd_invalidCiphertextLength st hk hd⟩
  case output => rw [exec_cbcd_of_aligned st hk hd hiv h, hm]; rfl

end

section
/-! PROOFS. The family of the padding codec (44_padding.md): the bytes of `pad` (R210), the validity test of `unpad` (R211), and
how the commands PAD and UNPAD end (R214, R215). -/
namespace Sys2Proof.Machine

/-! ### The operand and the output -/

theorem byteAt_dataOperand (st : State) {i : Nat} (h : i < st.dlen.toNat) : byteAt st.dataOperand i = st.din.read i := by
  rw [byteAt, State.dataOperand, Memory.getD_slice, if_pos h, Nat.zero_add]

theorem byteAt_take (d : Bytes) {n i : Nat} (h : i < n) : byteAt (d.take n) i = byteAt d i := by
  simp [byteAt, List.getD, h]

/-- A command that ends with `Out(v)` shows the bytes of `v` and clears ERR (R67, R301). -/
theorem complete_out (st : State) {v : Bytes} {n : Nat} {f : Nat → Byte} (hlen : v.length = n)
    (h : ∀ i < n, byteAt v i = f i) :
    ∃ d, complete (st.out v) = .next { st with err := 0#3, dout := d, olen := BitVec.ofNat 32 n } ∧ d.holds n f := by
  subst hlen
  exact ⟨(st.out v).dout, rfl, State.out_holds h⟩

/-! ### `pad` -/

/-- Past the data every byte of the padded sequence is the count of the bytes added (R210). -/
theorem byteAt_padBytes (d : Bytes) {i : Nat} (h : i < (padBytes d 16).length) :
    byteAt (padBytes d 16) i
      = if i < d.length then byteAt d i else BitVec.ofNat 8 ((padBytes d 16).length - d.length) := by
  have hcount : (padBytes d 16).length - d.length = 16 - d.length % 16 := by rw [length_padBytes]; omega
  rw [hcount]
  rw [length_padBytes] at h
  split_ifs with hi
  · exact List.getD_append _ _ _ _ hi
  · rw [byteAt, padBytes, List.getD_append_right _ _ _ _ (Nat.le_of_not_lt hi), List.getD_replicate _ (by omega)]

/-! ### `unpad` -/

/-- The test of R211 on the `len` bytes `f 0, …, f (len - 1)`: the last byte p is in 1..bs and at most `len`, and the last p
bytes are p. -/
def ValidPadding (bs len : Nat) (f : Nat → Byte) : Prop :=
  let p := (f (len - 1)).toNat
  len ≠ 0 ∧ 1 ≤ p ∧ p ≤ bs ∧ p ≤ len ∧ ∀ j, len - p ≤ j → j < len → (f j).toNat = p

/-- The test looks at no byte from `len` on. -/
theorem ValidPadding.congr {bs len : Nat} {f g : Nat → Byte} (h : ∀ i < len, f i = g i) (hf : ValidPadding bs len f) :
    ValidPadding bs len g := by
  obtain ⟨hlen, hp⟩ := hf
  have hlast := h (len - 1) (by omega)
  rw [hlast] at hp
  obtain ⟨hpos, hbs, hle, hall⟩ := hp
  exact ⟨hlen, hpos, hbs, hle, fun j hj hjlen => by rw [← h j hjlen, hall j hj hjlen]⟩

/-- The model's search for a wrong padding byte finds none exactly when each byte from `k` on is `b`. -/
theorem any_drop_ne_eq_false_iff (d : Bytes) (k : Nat) (b : Byte) :
    (d.drop k).any (fun c => c ≠ b) = false ↔ ∀ j, k ≤ j → j < d.length → byteAt d j = b := by
  simp only [List.any_eq_false, decide_eq_true_eq, not_not]
  constructor
  · intro h j hk hj
    rw [byteAt, List.getD_eq_getElem _ _ hj]
    exact h _ (List.mem_drop_iff_getElem.mpr ⟨j - k, by omega, by congr 1; omega⟩)
  · intro h c hc
    obtain ⟨j, hj, rfl⟩ := List.mem_drop_iff_getElem.mp hc
    rw [← h (k + j) (by omega) (by omega), byteAt, List.getD_eq_getElem]

section
variable {d : Bytes} {bs : Nat}

theorem unpadBytes_of_valid (h : ValidPadding bs d.length (byteAt d)) :
    unpadBytes d bs = .ok (d.take (d.length - (byteAt d (d.length - 1)).toNat)) := by
  obtain ⟨hlen, hpos, hbs, hle, hall⟩ := h
  have hany := (any_drop_ne_eq_false_iff d _ _).mpr fun j hj hjlen => BitVec.eq_of_toNat_eq (hall j hj hjlen)
  unfold unpadBytes
  dsimp only
  rw [if_neg hlen, if_neg (by omega), if_neg (by omega), if_neg (by rw [hany]; decide)]

theorem unpadBytes_of_not_valid (h : ¬ValidPadding bs d.length (byteAt d)) : unpadBytes d bs = .error .invalidPadding := by
  unfold unpadBytes
  dsimp only
  split_ifs with hlen hrange hle hany
  case neg =>
    have hall := (any_drop_ne_eq_false_iff d _ _).mp (Bool.eq_false_iff.mpr hany)
    exact absurd ⟨hlen, by omega, by omega, by omega, fun j hj hjlen => congrArg _ (hall j hj hjlen)⟩ h
  all_goals rfl

end

/-! ### The commands PAD and UNPAD -/

section
variable (st : State)

theorem exec_pad_of_fits (hd : st.dataFits) (hp : st.paddedFits) :
    exec .pad st = complete (st.out (padBytes st.dataOperand 16)) :=
  (require_pos st _ _ hd).trans (require_pos st _ _ hp)

theorem exec_pad_illegal (h : ¬(st.dataFits ∧ st.paddedFits)) : exec .pad st = .next (st.setErr 6#3) := by
  by_cases hd : st.dataFits
  · exact (require_pos st _ _ hd).trans (require_neg st .illegalCommand _ fun hp => h ⟨hd, hp⟩)
  · exact require_neg st .illegalCommand _ hd

theorem exec_unpad_of_fits (hd : st.dataFits) :
    exec .unpad st = attempt (unpadBytes st.dataOperand 16) st fun m => complete (st.out m) :=
  require_pos st _ _ hd

/-- The test on the data operand is the test on DIN[0..DLEN). -/
theorem validPadding_dataOperand_iff :
    ValidPadding 16 st.dataOperand.length (byteAt st.dataOperand) ↔ ValidPadding 16 st.dlen.toNat st.din.read := by
  rw [length_dataOperand]
  exact ⟨.congr fun i hi => byteAt_dataOperand st hi, .congr fun i hi => (byteAt_dataOperand st hi).symm⟩

/-- UNPAD outputs the data before a valid padding of p bytes (R215). -/
theorem exec_unpad_of_valid (hd : st.dataFits) (h : ValidPadding 16 st.dlen.toNat st.din.read) :
    exec .unpad st
      = complete (st.out (st.dataOperand.take (st.dlen.toNat - (st.din.read (st.dlen.toNat - 1)).toNat))) := by
  have hlast := byteAt_dataOperand st (Nat.sub_one_lt h.1)
  rw [exec_unpad_of_fits st hd, unpadBytes_of_valid ((validPadding_dataOperand_iff st).mpr h), length_dataOperand, hlast,
    attempt_ok]

theorem exec_unpad_invalidPadding (hd : st.dataFits) (h : ¬ValidPadding 16 st.dlen.toNat st.din.read) :
    exec .unpad st = .next (st.setErr 5#3) := by
  rw [exec_unpad_of_fits st hd, unpadBytes_of_not_valid (mt (validPadding_dataOperand_iff st).mp h)]
  rfl

end

end Sys2Proof.Machine

open Sys2Proof Sys2Proof.Machine

/-- Settles O34: PAD outputs `pad` of the data operand, whose bytes past the data are the count. -/
theorem padAppendsTheCount : Obligations.PadAppendsTheCount := by
  refine ⟨rfl, fun st => ⟨fun hd hp => ?_, fun h => exec_pad_illegal st fun ⟨hd, hp⟩ => ?_⟩⟩
  · have hlen := length_padBytes_dataOperand st
    rw [exec_pad_of_fits st hd hp]
    refine complete_out st hlen fun i hi => ?_
    rw [byteAt_padBytes _ (by rwa [hlen]), hlen, length_dataOperand]
    split_ifs with hdata
    · exact byteAt_dataOperand st hdata
    · rfl
  · exact h.elim (Nat.not_lt.mpr hd) (Nat.not_lt.mpr hp)

/-- Settles O35: `unpad` accepts the data operand exactly when DIN[0..DLEN) passes the test, and takes the data before it. -/
theorem unpadChecksAndStrips : Obligations.UnpadChecksAndStrips := by
  refine ⟨rfl, fun st => ⟨fun hd h => ?_, fun hd => exec_unpad_invalidPadding st hd,
    fun h => require_neg st .illegalCommand _ (Nat.not_le.mpr h)⟩⟩
  rw [exec_unpad_of_valid st hd h]
  refine complete_out st (by simp) fun i hi => ?_
  rw [byteAt_take _ hi, byteAt_dataOperand st (hi.trans_le (Nat.sub_le _ _))]

end

section
/-! PROOFS. The family of the stream state (45_stream_state.md): the words of `init` as bytes of KEY and NONCE (R227), the block
counter (R232), and how the commands SINIT and SINC end (R228, R231). -/
namespace Sys2Proof.Machine

/-! ### The words of `init` -/

theorem byteAt_slice (m : Memory) (n i : Nat) : byteAt (m.slice 0 n) i = if i < n then m.read i else 0#8 := by
  rw [byteAt, Memory.getD_slice, Nat.zero_add]

/-- The bytes that pad the nonce are what the model reads past its end anyway. -/
@[simp] theorem byteAt_paddedNonce (n : Bytes) (i : Nat) : byteAt (paddedNonce n) i = byteAt n i := by
  by_cases hi : i < n.length
  · exact List.getD_append _ _ _ _ hi
  · have hle := Nat.le_of_not_lt hi
    calc byteAt (paddedNonce n) i
      _ = (List.replicate (12 - n.length) 0#8).getD (i - n.length) 0#8 := List.getD_append_right _ _ _ _ hle
      _ = 0#8 := List.getElem?_getD_replicate_default_eq ..
      _ = byteAt n i := (List.getD_eq_default _ _ hle).symm

/-- A key word is four bytes of KEY, the first the least significant (R75, R227). -/
theorem leWord_keyOperand {st : State} (hk : st.klen = 32#32) {i : Nat} (hi : i < 8) :
    leWord st.keyOperand i = le32 (st.key.read (4 * i)) (st.key.read (4 * i + 1)) (st.key.read (4 * i + 2))
      (st.key.read (4 * i + 3)) := by
  have hbyte (j : Nat) (hj : j < 32) : byteAt st.keyOperand j = st.key.read j := by
    rw [State.keyOperand, hk]; exact (byteAt_slice st.key 32 j).trans (if_pos hj)
  rw [leWord, hbyte _ (by omega), hbyte _ (by omega), hbyte _ (by omega), hbyte _ (by omega)]

theorem byteAt_nonceOperand (st : State) (i : Nat) :
    byteAt st.nonceOperand i = if i < st.nlen.toNat then st.nonce.read i else 0#8 :=
  byteAt_slice st.nonce st.nlen.toNat i

/-! ### The block counter -/

@[simp] theorem getElem_advanceCounter_counter (x : Words 16) : (advanceCounter x)[12] = x[12] + 1#32 :=
  Vector.getElem_set_self _

theorem getElem_advanceCounter_ne (x : Words 16) {i : Nat} (h : i < 16) (hne : i ≠ 12) : (advanceCounter x)[i] = x[i] :=
  Vector.getElem_set_ne _ h hne.symm

/-! ### The commands SINIT and SINC -/

section
variable (st : State)

/-- SINIT on operands of legal lengths stores what `init` gives (R228). -/
theorem exec_sinit_of_lengths (hn : st.nlen.toNat ≤ 12) (hk : st.klen = 32#32) :
    exec .sinit st = complete (st.loadX (streamLayout st.keyOperand st.nonceOperand st.ctr0)) := by
  have hlen : st.keyOperand.length = 32 := by rw [length_keyOperand, hk]; rfl
  have hinit : streamInit st.keyOperand st.nonceOperand st.ctr0 = .ok (streamLayout _ _ _) := if_pos hlen
  calc exec .sinit st
    _ = attempt (streamInit st.keyOperand st.nonceOperand st.ctr0) st fun x => complete (st.loadX x) :=
          (require_pos st _ _ hn).trans (require_pos st _ _ hk)
    _ = _ := by rw [hinit, attempt_ok]

theorem exec_sinit_illegal (hn : ¬st.nlen.toNat ≤ 12) : exec .sinit st = .next (st.setErr 6#3) :=
  require_neg st .illegalCommand _ hn

theorem exec_sinit_invalidKeySize (hn : st.nlen.toNat ≤ 12) (hk : st.klen ≠ 32#32) :
    exec .sinit st = .next (st.setErr 1#3) :=
  (require_pos st _ _ hn).trans (require_neg st .invalidKeySize _ hk)

theorem exec_sinc_of_valid (hv : st.xv = true) : exec .sinc st = complete (st.setX (advanceCounter st.x)) :=
  require_pos st _ _ hv

theorem exec_sinc_illegal (hv : ¬st.xv = true) : exec .sinc st = .next (st.setErr 6#3) :=
  require_neg st .illegalCommand _ hv

end

end Sys2Proof.Machine

open Sys2Proof Sys2Proof.Machine

/-- Settles O42: past the checks in their order, the words of `init` are the constants, the bytes of the operands and CTR0. -/
theorem sinitBuildsTheStreamState : Obligations.SinitBuildsTheStreamState := by
  refine ⟨rfl, fun st => ?_⟩
  dsimp only
  refine ⟨fun hn hk => ?_, fun hn => exec_sinit_illegal st (Nat.not_le.mpr hn), exec_sinit_invalidKeySize st⟩
  rw [exec_sinit_of_lengths st hn hk, streamLayout]
  simp (disch := decide) only [leWord_keyOperand hk]
  simp only [leWord, byteAt_paddedNonce, byteAt_nonceOperand]
  rfl

/-- Settles O43: the counter is the one word that SINC advances. -/
theorem sincAdvancesTheCounter : Obligations.SincAdvancesTheCounter := by
  refine ⟨rfl, fun st => ⟨fun hv => ?_, fun hv => exec_sinc_illegal st (Bool.eq_false_iff.mp hv)⟩⟩
  exact ⟨advanceCounter st.x, exec_sinc_of_valid st hv, getElem_advanceCounter_counter st.x,
    fun _ => getElem_advanceCounter_ne st.x⟩

end

section
/-! PROOFS. The family of the round function (46_round_function.md): the four words of a quarter-round (R241), the iteration as
eight QR commands (R243, R253), and how the commands LDW, QR, DRND, FFWD, SERW and SBLK end (R242 to R252). -/
namespace Sys2Proof.Machine

/-! ### Sixteen words, word by word -/

theorem words16_getD (v : Words 16) {i : Nat} (h : i < 16) : v.getD i 0#32 = v[i] := by simp [Vector.getD, h]

@[simp] theorem getElem_addWords (v x : Words 16) (i : Nat) (h : i < 16) : (addWords v x)[i] = v[i] + x[i] :=
  Vector.getElem_ofFn h

@[simp] theorem getElem_addInto (v : Words 16) (i j : Fin 16) (k : Nat) (h : k < 16) :
    (addInto v i j)[k] = if i = k then v[i.val] + v[j.val] else v[k] :=
  Vector.getElem_set i.isLt h

@[simp] theorem getElem_xorRotate (v : Words 16) (i j : Fin 16) (n k : Nat) (h : k < 16) :
    (xorRotate v i j n)[k] = if i = k then rotl32 (v[i.val] ^^^ v[j.val]) n else v[k] :=
  Vector.getElem_set i.isLt h

/-! ### The bytes of the output -/

theorem byteAt_serialise (v : Words 16) {k : Nat} (hk : k < 64) :
    byteAt (serialise v) k = (v.getD (k / 4) 0#32).extractLsb' (8 * (k % 4)) 8 := by
  rw [byteAt, getD_serialise v k hk, words16_getD]

/-- The keystream block is the sum of X and its tenth iterate, little-endian per word (R251). -/
theorem byteAt_streamBlock (x : Words 16) {k : Nat} (hk : k < 64) :
    byteAt (streamBlock x) k
      = ((doubleRound^[10] x).getD (k / 4) 0#32 + x.getD (k / 4) 0#32).extractLsb' (8 * (k % 4)) 8 := by
  have hword : k / 4 < 16 := by omega
  rw [streamBlock, byteAt_serialise _ hk, words16_getD _ hword, words16_getD _ hword, words16_getD _ hword, getElem_addWords]

/-! ### The quarter-round -/

theorem indicesDistinct_iff {a b c d : BitVec 4} :
    indicesDistinct a b c d = true ↔ a ≠ b ∧ a ≠ c ∧ a ≠ d ∧ b ≠ c ∧ b ≠ d ∧ c ≠ d := by
  simp [indicesDistinct, and_assoc]

/-- A quarter-round writes no word but its four (R241). -/
theorem getElem_quarterRound_other (v : Words 16) {a b c d : Fin 16} {i : Nat} (h : i < 16) (ha : i ≠ a) (hb : i ≠ b)
    (hc : i ≠ c) (hd : i ≠ d) : (quarterRound v a b c d)[i] = v[i] := by
  simp [quarterRound, ha.symm, hb.symm, hc.symm, hd.symm]

/-- On distinct indices each of the eight assignments (R241) reads what the ones before it wrote to its two words. -/
theorem getElem_quarterRound (v : Words 16) {a b c d : BitVec 4} (h : indicesDistinct a b c d = true) :
    let a1 := v[a.toNat] + v[b.toNat]
    let d1 := rotl32 (v[d.toNat] ^^^ a1) 16
    let c1 := v[c.toNat] + d1
    let b1 := rotl32 (v[b.toNat] ^^^ c1) 12
    let a2 := a1 + b1
    let d2 := rotl32 (d1 ^^^ a2) 8
    let c2 := c1 + d2
    let b2 := rotl32 (b1 ^^^ c2) 7
    let w := quarterRound v (wordIndex a) (wordIndex b) (wordIndex c) (wordIndex d)
    w[a.toNat] = a2 ∧ w[b.toNat] = b2 ∧ w[c.toNat] = c2 ∧ w[d.toNat] = d2 := by
  obtain ⟨hab, hac, had, hbc, hbd, hcd⟩ := indicesDistinct_iff.mp h
  simp [quarterRound, wordIndex, BitVec.toNat_inj, hab, hac, had, hbc, hbd, hcd, hab.symm, hac.symm, had.symm, hbc.symm,
    hbd.symm, hcd.symm]

/-! ### The commands -/

section
variable (st : State)

/-- A command that ends with words stored in W changes ERR and W alone. -/
theorem complete_setW (v : Words 16) : complete (st.setW v) = .next { st with err := 0#3, w := v } := rfl

theorem exec_qr_of_distinct {a b c d : BitVec 4} (hv : st.wv = true) (h : indicesDistinct a b c d = true) :
    exec (.qr a b c d) st
      = complete (st.setW (quarterRound st.w (wordIndex a) (wordIndex b) (wordIndex c) (wordIndex d))) :=
  (require_pos st _ _ hv).trans (require_pos st _ _ (indicesDistinct_iff.mp h))

theorem exec_qr_illegal {a b c d : BitVec 4} (h : st.wv = false ∨ indicesDistinct a b c d = false) :
    exec (.qr a b c d) st = .next (st.setErr 6#3) := by
  by_cases hv : st.wv = true
  · have hd : ¬indicesDistinct a b c d = true := by simpa [hv] using h
    exact (require_pos st _ _ hv).trans (require_neg st .illegalCommand _ (mt indicesDistinct_iff.mpr hd))
  · exact require_neg st .illegalCommand _ hv

theorem exec_ffwd_illegal (h : st.wv = false ∨ st.xv = false) : exec .ffwd st = .next (st.setErr 6#3) :=
  require_neg st .illegalCommand _ (by simpa [← Bool.not_eq_true, ← not_and_or] using h)

theorem exec_drnd_of_working (hv : st.wv = true) : exec .drnd st = complete (st.setW (doubleRound st.w)) :=
  require_pos st _ _ hv

theorem exec_serw_of_working (hv : st.wv = true) : exec .serw st = complete (st.out (serialise st.w)) :=
  require_pos st _ _ hv

theorem exec_sblk_of_valid (hv : st.xv = true) : exec .sblk st = complete (st.out (streamBlock st.x)) :=
  require_pos st _ _ hv

end

/-! ### The iteration as eight commands -/

/-- In the middle of a sequence of QR commands, where ERR is 0 and W holds `v`, the next one replaces `v` and nothing else. -/
theorem execSeq_qr_cons {st : State} (hv : st.wv = true) (v : Words 16) {a b c d : BitVec 4}
    (h : indicesDistinct a b c d = true) (l : List Instr) :
    execSeq (.qr a b c d :: l) ((st.setW v).setErr 0#3)
      = execSeq l ((st.setW (quarterRound v (wordIndex a) (wordIndex b) (wordIndex c) (wordIndex d))).setErr 0#3) :=
  execSeq_cons (exec_qr_of_distinct ((st.setW v).setErr 0#3) hv h)

/-- The QR commands on the column and the diagonal groups run one iteration (R243, R253). -/
theorem execSeq_iterationSteps {st : State} (hv : st.wv = true) : execSeq iterationSteps st = exec .drnd st := by
  rw [exec_drnd_of_working st hv, iterationSteps, execSeq_cons (exec_qr_of_distinct st hv (by decide))]
  simp (disch := decide) only [execSeq_qr_cons hv]
  rfl

end Sys2Proof.Machine

open Sys2Proof Sys2Proof.Machine

/-- Settles O44: both end with their one update of W, FFWD with the sum word by word. -/
theorem ldwAndFfwdTakeTheStreamState : Obligations.LdwAndFfwdTakeTheStreamState :=
  ⟨rfl, rfl, fun st => ⟨fun hx => require_pos st _ _ hx, fun hx => require_neg st .illegalCommand _ (Bool.eq_false_iff.mp hx),
    fun hw hx => ⟨addWords st.w st.x, require_pos st _ _ ⟨hw, hx⟩, getElem_addWords st.w st.x⟩, exec_ffwd_illegal st⟩⟩

/-- Settles O45: past the two checks QR stores the quarter-round, which is known word by word. -/
theorem qrMixesFourWords : Obligations.QrMixesFourWords := by
  refine fun st a b c d => ⟨rfl, fun hv h => ?_, exec_qr_illegal st⟩
  obtain ⟨ha, hb, hc, hd⟩ := getElem_quarterRound st.w h
  exact ⟨_, exec_qr_of_distinct st hv h, ha, hb, hc, hd, fun i hi => getElem_quarterRound_other st.w hi⟩

/-- Settles O46: DRND and the eight QR commands both end with one iteration on W. -/
theorem drndIsEightQuarterRounds : Obligations.DrndIsEightQuarterRounds := by
  refine ⟨rfl, fun st => ⟨fun hv => ?_, fun hv => require_neg st .illegalCommand _ (Bool.eq_false_iff.mp hv)⟩⟩
  rw [execSeq_iterationSteps hv, exec_drnd_of_working st hv, complete_setW]
  exact ⟨doubleRound st.w, rfl, rfl⟩

/-- Settles O47: the output is the serialisation of W. -/
theorem serwSerialisesTheBuffer : Obligations.SerwSerialisesTheBuffer := by
  refine ⟨rfl, fun st => ⟨fun hv => ?_, fun hv => require_neg st .illegalCommand _ (Bool.eq_false_iff.mp hv)⟩⟩
  rw [exec_serw_of_working st hv]
  exact complete_out st (length_serialise st.w) fun _ => byteAt_serialise st.w

/-- Settles O48: the output is the keystream block of X, and the sequence is that of the iterates of `doubleRound` on X. -/
theorem sblkOutputsTheKeystreamBlock : Obligations.SblkOutputsTheKeystreamBlock := by
  refine ⟨rfl, fun st => ⟨fun hv => ?_, fun hv => require_neg st .illegalCommand _ (Bool.eq_false_iff.mp hv)⟩⟩
  obtain ⟨d, hd, hbytes⟩ := complete_out st (length_streamBlock st.x) fun _ => byteAt_streamBlock st.x
  exact ⟨d, fun k => doubleRound^[k] st.x, (exec_sblk_of_valid st hv).trans hd, rfl,
    fun _ => Function.iterate_succ_apply' .., hbytes⟩

end

section
/-! PROOFS. The family of the stream combiner (47_stream_combiner.md): the bytes of `apply` in closed form (R269), from which it
is its own inverse (R267), and how the command SAPPLY ends (R266). -/
namespace Sys2Proof.Machine

/-! ### The block counter some blocks on -/

/-- X with its block counter advanced by `i` modulo 2^32: the state of the keystream block of chunk `i` (R265). -/
def counterAfter (x : Words 16) (i : Nat) : Words 16 := x.set 12 (x[12] + BitVec.ofNat 32 i)

@[simp] theorem counterAfter_zero (x : Words 16) : counterAfter x 0 = x := by simp [counterAfter]

@[simp] theorem getElem_counterAfter_counter (x : Words 16) (i : Nat) : (counterAfter x i)[12] = x[12] + BitVec.ofNat 32 i :=
  Vector.getElem_set_self _

theorem counterAfter_advanceCounter (x : Words 16) (i : Nat) :
    counterAfter (advanceCounter x) i = counterAfter x (i + 1) := by
  have hsum : x[12] + 1#32 + BitVec.ofNat 32 i = x[12] + BitVec.ofNat 32 (i + 1) := by
    rw [BitVec.add_assoc, ← BitVec.ofNat_add, Nat.add_comm]
  rw [counterAfter, getElem_advanceCounter_counter, hsum, advanceCounter, Vector.set_set, counterAfter]

/-! ### The bytes of `apply` -/

/-- Byte `k` of the keystream of X: a byte of block `k / 64` (R269). -/
def keystreamByte (x : Words 16) (k : Nat) : Byte := byteAt (streamBlock (counterAfter x (k / 64))) (k % 64)

/-- After the first block the keystream is that of X with its counter advanced. -/
theorem keystreamByte_advanceCounter (x : Words 16) {k : Nat} (hk : 64 ≤ k) :
    keystreamByte (advanceCounter x) (k - 64) = keystreamByte x k := by
  have hdiv : (k - 64) / 64 + 1 = k / 64 := by omega
  have hmod : (k - 64) % 64 = k % 64 := by omega
  rw [keystreamByte, counterAfter_advanceCounter, hdiv, hmod, keystreamByte]

theorem byteAt_xorBytes {a b : Bytes} {k : Nat} (ha : k < a.length) (hb : k < b.length) :
    byteAt (xorBytes a b) k = byteAt a k ^^^ byteAt b k := by
  simp [byteAt, xorBytes, ha, hb]

theorem byteAt_drop (d : Bytes) (n k : Nat) : byteAt (d.drop n) k = byteAt d (n + k) := by
  simp [byteAt, List.getD]

/-- The counter advances once for each chunk, and no other word of X changes (R265). -/
theorem fst_applyChunks (n : Nat) (x : Words 16) (d : Bytes) : (applyChunks n x d).1 = counterAfter x n := by
  induction n generalizing x d with
  | zero => exact (counterAfter_zero x).symm
  | succ n ih => rw [applyChunks, ih, counterAfter_advanceCounter]

theorem byteAt_applyChunks {n k : Nat} {x : Words 16} {d : Bytes} (hk : k < d.length) (hn : d.length ≤ 64 * n) :
    byteAt (applyChunks n x d).2 k = byteAt d k ^^^ keystreamByte x k := by
  induction n generalizing x d k with
  | zero => omega
  | succ n ih =>
    have hfirst : (xorBytes (d.take 64) (streamBlock x)).length = min 64 d.length := by simp
    by_cases h64 : k < 64
    · have hkey : keystreamByte x k = byteAt (streamBlock x) k := by
        rw [keystreamByte, Nat.div_eq_of_lt h64, Nat.mod_eq_of_lt h64, counterAfter_zero]
      calc byteAt (applyChunks (n + 1) x d).2 k
        _ = byteAt (xorBytes (d.take 64) (streamBlock x)) k := List.getD_append _ _ _ _ (by omega)
        _ = byteAt d k ^^^ keystreamByte x k := by
          rw [byteAt_xorBytes (by simp; omega) (by simpa), byteAt_take d h64, hkey]
    · have hlen : d.length - 64 = (d.drop 64).length := by simp
      calc byteAt (applyChunks (n + 1) x d).2 k
        _ = byteAt (applyChunks n (advanceCounter x) (d.drop 64)).2 (k - min 64 d.length) := by
          rw [← hfirst]; exact List.getD_append_right _ _ _ _ (by omega)
        _ = byteAt (d.drop 64) (k - 64) ^^^ keystreamByte (advanceCounter x) (k - 64) := by
          rw [Nat.min_eq_left (by omega)]; exact ih (by omega) (by omega)
        _ = byteAt d k ^^^ keystreamByte x k := by
          rw [byteAt_drop, keystreamByte_advanceCounter x (by omega), Nat.add_sub_cancel' (by omega)]

/-- Byte `k` of the result of `apply` is the data byte XOR the keystream byte (R269). -/
theorem byteAt_streamApply (x : Words 16) {d : Bytes} {k : Nat} (hk : k < d.length) :
    byteAt (streamApply x d).2 k = byteAt d k ^^^ keystreamByte x k :=
  byteAt_applyChunks hk (by omega)

/-- Two sequences of one length with the same bytes are the same. -/
theorem bytes_ext {a b : Bytes} (hlen : a.length = b.length) (h : ∀ k < b.length, byteAt a k = byteAt b k) : a = b := by
  refine List.ext_getElem hlen fun k ha hb => ?_
  have hk := h k hb
  rwa [byteAt, byteAt, List.getD_eq_getElem _ _ ha, List.getD_eq_getElem _ _ hb] at hk

/-! ### The command SAPPLY -/

section
variable (st : State)

theorem exec_sapply_of_fits (hv : st.xv = true) (hd : st.dlen ≤ st.cap) :
    exec .sapply st = complete ((st.setX (st.x.set 12 (streamApply st.x st.dataOperand).1[12])).out
      (streamApply st.x st.dataOperand).2) :=
  (require_pos st _ _ hv).trans (require_pos st _ _ hd)

theorem exec_sapply_illegal (h : st.xv = false ∨ st.cap < st.dlen) : exec .sapply st = .next (st.setErr 6#3) := by
  by_cases hv : st.xv = true
  · have hd : ¬st.dlen ≤ st.cap := BitVec.not_le.mpr (by simpa [hv] using h)
    exact (require_pos st _ _ hv).trans (require_neg st .illegalCommand _ hd)
  · exact require_neg st .illegalCommand _ hv

end

end Sys2Proof.Machine

open Sys2Proof Sys2Proof.Machine

/-- Settles O50: the output is `apply` of the data operand, whose bytes are known in closed form, and the counter stored is the
one `apply` ends with. -/
theorem sapplyXorsTheKeystream : Obligations.SapplyXorsTheKeystream := by
  refine ⟨rfl, fun st => ⟨fun hv hd => ?_, exec_sapply_illegal st⟩⟩
  have hcounter : (streamApply st.x st.dataOperand).1[12] = st.x[12] + BitVec.ofNat 32 ((st.dlen.toNat + 63) / 64) := by
    rw [streamApply, fst_applyChunks, getElem_counterAfter_counter, length_dataOperand]
  have hlen : (streamApply st.x st.dataOperand).2.length = st.dlen.toNat := by
    rw [length_streamApply, length_dataOperand]
  have hbytes (k : Nat) (hk : k < st.dlen.toNat) :
      byteAt (streamApply st.x st.dataOperand).2 k = st.din.read k ^^^ keystreamByte st.x k := by
    rw [byteAt_streamApply st.x (by rwa [length_dataOperand]), byteAt_dataOperand st hk]
  rw [exec_sapply_of_fits st hv hd, hcounter]
  obtain ⟨d, hnext, hholds⟩ := complete_out (st.setX _) hlen hbytes
  rw [BitVec.ofNat_toNat, BitVec.setWidth_eq] at hnext
  exact ⟨d, hnext, hholds⟩

/-- Settles O51: the keystream depends on the starting state alone, and XOR with the same byte twice gives the byte back. -/
theorem applyIsSelfInverse : Obligations.ApplyIsSelfInverse := by
  intro x data
  have hlen := length_streamApply x data
  refine bytes_ext ((length_streamApply x _).trans hlen) fun k hk => ?_
  rw [byteAt_streamApply x (by rwa [hlen]), byteAt_streamApply x hk, BitVec.xor_assoc, BitVec.xor_self, BitVec.xor_zero]

end

section
/-! PROOFS. The malformed words of the encoding (30_encoding.md R98, 60_exceptions.md R296): none of them decodes. -/
namespace Sys2Proof

section
variable {o : Byte} {f : Format} {w : Word}

/-- The reserved opcode values are those the map leaves out (R96, R98). -/
theorem not_opcodeReserved (h : opcodeMap o = some f) : ¬Machine.opcodeReserved o := by
  unfold opcodeMap at h
  split at h
  case h_29 => cases h
  all_goals unfold Machine.opcodeReserved; decide

/-- Every opcode but those of STRK, ARK and QR takes no argument (R92 to R94, R96). -/
theorem argument_eq_zero (h : opcodeMap o = some f) (hstrk : o ≠ 0x11#8) (hark : o ≠ 0x14#8) (hqr : o ≠ 0x39#8)
    (ha : f.argOk w) : w.extractLsb' 8 16 = 0#16 := by
  unfold opcodeMap at h
  split at h
  case h_4 => exact absurd rfl hstrk
  case h_7 => exact absurd rfl hark
  case h_23 => exact absurd rfl hqr
  all_goals cases h
  all_goals exact ha

/-- STRK and ARK take a round index and no bit above it (R93, R96). -/
theorem roundField_eq_zero (h : opcodeMap o = some f) (ho : o = 0x11#8 ∨ o = 0x14#8) (ha : f.argOk w) :
    w.extractLsb' 12 12 = 0#12 := by
  rcases ho with rfl | rfl
  all_goals cases h; exact ha

end

/-- A word with a bit where its opcode's format has none, or with no opcode of the map, raises `IllegalCommand` (R97). -/
theorem runWord_of_malformed {w : Word} {st : Machine.State}
    (h : w.extractLsb' 24 8 = 0#8 → ∀ f, opcodeMap (w.extractLsb' 0 8) = some f → ¬f.argOk w) :
    Machine.runWord w st = .next { st with err := 6#3 } :=
  Machine.runWord_of_no_command fun _ hi => by
    obtain ⟨hz, f, hm, ha, -⟩ := decode_eq_ok_iff.mp hi
    exact h hz f hm ha

end Sys2Proof

open Sys2Proof Sys2Proof.Machine

/-- Settles O4: a word that decodes has an opcode of the map, a zero top byte, and zeros where its format requires them. -/
theorem reservedEncodingsAreIllegal : Obligations.ReservedEncodingsAreIllegal := by
  intro w st
  refine ⟨fun hres => ?opcode, fun hz => ?zeroField, fun harg hstrk hark hqr => ?argument, fun hfield ho => ?roundField⟩
  case opcode => exact runWord_of_malformed fun _ f hm _ => not_opcodeReserved hm hres
  case zeroField => exact runWord_of_malformed fun h => absurd h hz
  case argument => exact runWord_of_malformed fun _ f hm ha => harg (argument_eq_zero hm hstrk hark hqr ha)
  case roundField => exact runWord_of_malformed fun _ f hm ha => hfield (roundField_eq_zero hm ho ha)

end

section
/-! PROOFS. The tables meet their definitions (40_tables.md R122, R124, R126). -/
namespace Sys2Proof.Machine

/-- The affine map of R122, taken back: the byte whose affine image is `s`. -/
def affineInverse (s : Byte) : Byte := s.rotateLeft 1 ^^^ s.rotateLeft 3 ^^^ s.rotateLeft 6 ^^^ 0x05#8

/-- Taking the affine map off an entry of SBOX leaves the field inverse of the index (R122). -/
theorem affineInverse_sbox : ∀ a : Byte,
    if a = 0#8 then affineInverse (sbox a) = 0#8 else gmul a (affineInverse (sbox a)) = 1#8 := by decide +kernel

/-- Putting the affine map of R122 on again gives the byte back. -/
theorem affine_affineInverse : ∀ s : Byte, s = affineInverse s ^^^ (affineInverse s).rotateLeft 1
    ^^^ (affineInverse s).rotateLeft 2 ^^^ (affineInverse s).rotateLeft 3 ^^^ (affineInverse s).rotateLeft 4 ^^^ 0x63#8 := by
  decide +kernel

end Sys2Proof.Machine

open Sys2Proof Sys2Proof.Machine

/-- Settles O17: the byte under the affine map is the field inverse, and the two tables undo each other entry by entry. -/
theorem tablesMeetTheirDefinitions : Obligations.TablesMeetTheirDefinitions := by
  refine ⟨fun a => ⟨affineInverse (sbox a), affineInverse_sbox a, affine_affineInverse (sbox a)⟩,
    fun a => ⟨isbox_sbox a, sbox_isbox a⟩, rfl, fun j hj hlt => ?_⟩
  interval_cases j <;> rfl

end

section
/-! PROOFS. What undoes what in the block unit: the two block functions (42_block_transform.md R177), the padding
(44_padding.md R212) and the CBC mode (43_cbc_mode.md R197); and how the command CBCE ends (R193). -/
namespace Sys2Proof.Machine

/-! ### The block functions -/

/-- A fold is undone by the fold of the undoing steps over the reversed list. -/
theorem foldl_reverse_foldl {α β : Type} {f g : β → α → β} (h : ∀ v r, g (f v r) r = v) (l : List α) (v : β) :
    l.reverse.foldl g (l.foldl f v) = v := by
  induction l generalizing v with
  | nil => rfl
  | cons a l ih =>
    rw [List.reverse_cons, List.foldl_append]
    exact (congrArg (g · a) (ih (f v a))).trans (h v a)

theorem decryptRound_encryptRound (rk : Words 60) (v : Words 4) (r : Nat) :
    decryptRound rk (encryptRound rk v r) r = v := by
  rw [decryptRound, encryptRound, addRoundKey_addRoundKey, invMixColumns_mixColumns, invShiftRows_shiftRows,
    invSubBytes_subBytes]

theorem encryptRound_decryptRound (rk : Words 60) (v : Words 4) (r : Nat) :
    encryptRound rk (decryptRound rk v r) r = v := by
  rw [encryptRound, decryptRound, subBytes_invSubBytes, shiftRows_invShiftRows, mixColumns_invMixColumns,
    addRoundKey_addRoundKey]

/-- Each step of R176 undoes the matching step of R170, from the last round back to the first key addition (R177). -/
theorem decryptBlock_encryptBlock (rk : Words 60) (n : Nat) {b : Bytes} (hb : b.length = 16) :
    decryptBlock (encryptBlock b rk n) rk n = b := by
  simp only [decryptBlock, encryptBlock]
  rw [loadState_storeState, addRoundKey_addRoundKey, invShiftRows_shiftRows, invSubBytes_subBytes,
    foldl_reverse_foldl (decryptRound_encryptRound rk), addRoundKey_addRoundKey, storeState_loadState b hb]

/-- Each step of R170 undoes the matching step of R176 (R177). -/
theorem encryptBlock_decryptBlock (rk : Words 60) (n : Nat) {b : Bytes} (hb : b.length = 16) :
    encryptBlock (decryptBlock b rk n) rk n = b := by
  have hrounds := foldl_reverse_foldl (encryptRound_decryptRound rk) (List.range' 1 (n - 1)).reverse
  rw [List.reverse_reverse] at hrounds
  simp only [decryptBlock, encryptBlock]
  rw [loadState_storeState, addRoundKey_addRoundKey, hrounds, subBytes_invSubBytes, shiftRows_invShiftRows,
    addRoundKey_addRoundKey, storeState_loadState b hb]

/-! ### The padding -/

/-- The bytes that `pad` adds are their count (R210). -/
theorem byteAt_padBytes_of_le (x : Bytes) {bs j : Nat} (hj : x.length ≤ j) (hlt : j < (padBytes x bs).length) :
    byteAt (padBytes x bs) j = BitVec.ofNat 8 (bs - x.length % bs) := by
  have hcount : (padBytes x bs).length = x.length + (bs - x.length % bs) := by simp [padBytes]
  rw [byteAt, padBytes, List.getD_append_right _ _ _ _ hj, List.getD_replicate _ (by omega)]

/-- The count is a byte from 1 to the block size, so the test of R211 accepts what `pad` gives (R212). -/
theorem unpadBytes_padBytes (x : Bytes) {bs : Nat} (hpos : 1 ≤ bs) (hbyte : bs ≤ 255) :
    unpadBytes (padBytes x bs) bs = .ok x := by
  have hmod : x.length % bs < bs := Nat.mod_lt _ hpos
  have hlen : (padBytes x bs).length = x.length + (bs - x.length % bs) := by simp [padBytes]
  have hpad (j : Nat) (hj : x.length ≤ j) (hlt : j < (padBytes x bs).length) :
      (byteAt (padBytes x bs) j).toNat = bs - x.length % bs := by
    rw [byteAt_padBytes_of_le x hj hlt, BitVec.toNat_ofNat, Nat.mod_eq_of_lt (by omega)]
  have hlast := hpad ((padBytes x bs).length - 1) (by omega) (by omega)
  have hvalid : ValidPadding bs (padBytes x bs).length (byteAt (padBytes x bs)) := by
    rw [ValidPadding, hlast]
    exact ⟨by omega, by omega, by omega, by omega, fun j hj => hpad j (by omega)⟩
  have hdata : (padBytes x bs).length - (bs - x.length % bs) = x.length := by omega
  rw [unpadBytes_of_valid hvalid, hlast, hdata, padBytes, List.take_left]

/-! ### The CBC mode -/

/-- Block by block, decryption takes the chaining value off again (R197). -/
theorem cbcDecryptBlocks_cbcEncryptBlocks (rk : Words 60) (n : Nat) {k : Nat} {chain p : Bytes}
    (hchain : chain.length = 16) (hp : p.length = 16 * k) :
    cbcDecryptBlocks rk n k chain (cbcEncryptBlocks rk n k chain p) = p := by
  induction k generalizing chain p with
  | zero => exact (List.eq_nil_of_length_eq_zero hp).symm
  | succ k ih =>
    have hblock : (p.take 16).length = 16 := by simp; omega
    have hrest : (p.drop 16).length = 16 * k := by simp; omega
    have hfirst := length_encryptBlock (xorBytes (p.take 16) chain) rk n
    simp only [cbcEncryptBlocks, cbcDecryptBlocks]
    rw [List.take_left' hfirst, List.drop_left' hfirst, ih hfirst hrest,
      decryptBlock_encryptBlock rk n (by rw [length_xorBytes, hblock, hchain, Nat.min_self]),
      xorBytes_xorBytes _ _ (by rw [hblock, hchain]), List.take_append_drop]

/-- The ciphertext has the padded length, decrypts to the padded data, and `unpad` strips the padding (R197). -/
theorem cbcDecrypt_cbcEncrypt (rk : Words 60) (n : Nat) {iv : Bytes} (hiv : iv.length = 16) (d : Bytes) :
    cbcDecrypt (cbcEncrypt d rk n iv) rk n iv = .ok d := by
  have hlen := (length_cbcEncrypt_eq d rk n iv).trans (length_padBytes d)
  have hpad := length_padBytes d
  have hblocks : cbcDecryptBlocks rk n ((padBytes d 16).length / 16) iv (cbcEncrypt d rk n iv) = padBytes d 16 :=
    cbcDecryptBlocks_cbcEncryptBlocks rk n hiv (by omega)
  rw [cbcDecrypt, if_neg (by omega), length_cbcEncrypt_eq, hblocks, unpadBytes_padBytes d (by decide) (by decide)]

/-! ### The command CBCE -/

section
variable (st : State)

theorem exec_cbce_illegal (h : ¬(st.rkv = true ∧ st.dataFits ∧ st.paddedFits)) :
    exec .cbce st = .next (st.setErr 6#3) := by
  by_cases hk : st.rkv = true
  · by_cases hd : st.dataFits
    · exact ((require_pos st _ _ hk).trans (require_pos st _ _ hd)).trans
        (require_neg st .illegalCommand _ fun hp => h ⟨hk, hd, hp⟩)
    · exact (require_pos st _ _ hk).trans (require_neg st .illegalCommand _ hd)
  · exact require_neg st .illegalCommand _ hk

variable (hk : st.rkv = true) (hd : st.dataFits) (hp : st.paddedFits)
include hk hd hp

theorem exec_cbce_invalidIVSize (hiv : st.ivlen ≠ 16#32) : exec .cbce st = .next (st.setErr 2#3) :=
  (((require_pos st _ _ hk).trans (require_pos st _ _ hd)).trans (require_pos st _ _ hp)).trans
    (require_neg st .invalidIVSize _ hiv)

theorem exec_cbce_of_fits (hiv : st.ivlen = 16#32) :
    exec .cbce st = complete (st.out (cbcEncrypt st.dataOperand st.rk st.nr.toNat st.ivOperand)) :=
  (((require_pos st _ _ hk).trans (require_pos st _ _ hd)).trans (require_pos st _ _ hp)).trans (require_pos st _ _ hiv)

end

end Sys2Proof.Machine

open Sys2Proof Sys2Proof.Machine

/-- Settles O31: the rounds are undone from the last one back, in either order. -/
theorem blockFunctionsAreInverse : Obligations.BlockFunctionsAreInverse :=
  fun rk n _ hb => ⟨decryptBlock_encryptBlock rk n hb, encryptBlock_decryptBlock rk n hb⟩

/-- Settles O36: the padded sequence passes the test, and what stands before its padding is the data. -/
theorem unpadUndoesPad : Obligations.UnpadUndoesPad :=
  fun x _ hpos hbyte => unpadBytes_padBytes x hpos hbyte

/-- Settles O41: by the inverse block functions each block is recovered, and by O36 the padding is stripped. -/
theorem cbcRoundTrip : Obligations.CbcRoundTrip :=
  fun rk n _ d hiv => cbcDecrypt_cbcEncrypt rk n hiv d

/-- Settles O38: past the checks in their order CBCE outputs `cbcEncrypt` of its operands, which has the padded length. -/
theorem cbceOutputsTheCiphertext : Obligations.CbceOutputsTheCiphertext := by
  refine ⟨rfl, fun st => ?_⟩
  dsimp only
  rw [← st.dataOperand_eq, ← st.ivOperand_eq]
  refine ⟨fun ⟨hk, hd, hp⟩ hiv => ?output, exec_cbce_illegal st, fun ⟨hk, hd, hp⟩ => exec_cbce_invalidIVSize st hk hd hp⟩
  case output =>
    rw [exec_cbce_of_fits st hk hd hp hiv]
    exact complete_out st ((length_cbcEncrypt_eq _ _ _ _).trans (length_padBytes_dataOperand st)) fun _ _ => rfl

end

section
/-! PROOFS. The step commands that spell out SBLK (46_round_function.md R253). -/
namespace Sys2Proof.Machine

/-- The state in the middle of the step commands: what it was before LDW, with ERR zero and the words `v` in W. -/
def State.working (st : State) (v : Words 16) : State := (st.loadW v).setErr 0#3

/-- A run of DRND commands iterates the double round on W (R246). -/
theorem execSeq_replicate_drnd (st : State) (n : Nat) (v : Words 16) :
    execSeq (List.replicate n .drnd) (st.working v) = .next (st.working (doubleRound^[n] v)) := by
  induction n generalizing v with
  | zero => rfl
  | succ n ih =>
    have hfirst : exec .drnd (st.working v) = .next (st.working (doubleRound v)) := exec_drnd_of_working (st.working v) rfl
    rw [List.replicate_succ, execSeq_cons hfirst, ih, Function.iterate_succ_apply]

/-- Output after a load of W leaves what output alone leaves, but for W and WV. -/
theorem complete_loadW_out (st : State) (v : Words 16) (b : Bytes) :
    complete ((st.loadW v).out b) = .next { (st.out b).setErr 0#3 with w := v, wv := true } := rfl

/-- The step commands of `block` end with its sixteen words in W and their bytes, the keystream block, in DOUT. -/
theorem execSeq_blockSteps {st : State} (hv : st.xv = true) :
    execSeq blockSteps st
      = complete ((st.loadW (addWords (doubleRound^[10] st.x) st.x)).out (streamBlock st.x)) := by
  let last := addWords (doubleRound^[10] st.x) st.x
  have hload : execSeq [.ldw] st = .next (st.working st.x) := execSeq_cons (require_pos st _ _ hv)
  have hrounds := execSeq_replicate_drnd st 10 st.x
  have hforward : exec .ffwd (st.working (doubleRound^[10] st.x)) = .next (st.working last) :=
    require_pos _ _ _ (⟨rfl, hv⟩ : (st.working _).wv = true ∧ (st.working _).xv = true)
  rw [blockSteps, List.append_assoc, execSeq_append hload, execSeq_append hrounds, execSeq_cons hforward]
  exact execSeq_cons (exec_serw_of_working (st.working last) rfl)

end Sys2Proof.Machine

open Sys2Proof Sys2Proof.Machine

/-- Settles O49: the step commands run the iterations and the feed-forward of `block` on W, and SERW outputs what SBLK does. -/
theorem stepCommandsSpellOutSblk : Obligations.StepCommandsSpellOutSblk :=
  fun st hv => ⟨_, _, exec_sblk_of_valid st hv, (execSeq_blockSteps hv).trans (complete_loadW_out st _ _)⟩

end

section
/-! PROOFS. The rules of the whole machine: NOP, RST and HostReset (48_system.md R280, R281, 70_reset_and_hazards.md R330), the
operands (10_state.md R39), what a failing command changes (60_exceptions.md R300), which files a command needs (R298), and
what no command reads (R304, R316). -/
namespace Sys2Proof.Machine

/-! ### The operands -/

/-- No update but that of RST writes an operand or CAP (R39). -/
theorem UpdateOf.operands_eq {i : Instr} {st u : State} (h : UpdateOf st i u) (hr : i ≠ .rst) :
    u.key = st.key ∧ u.klen = st.klen ∧ u.iv = st.iv ∧ u.ivlen = st.ivlen ∧ u.nonce = st.nonce ∧ u.nlen = st.nlen
      ∧ u.ctr0 = st.ctr0 ∧ u.din = st.din ∧ u.dlen = st.dlen ∧ u.cap = st.cap := by
  cases h with
  | rst => exact absurd rfl hr
  | nop | kexp | lds | sinit | ldw | sinc | sapply | stepS | stepW | output =>
    exact ⟨rfl, rfl, rfl, rfl, rfl, rfl, rfl, rfl, rfl, rfl⟩

/-! ### The files a command needs -/

/-- The valid flag of a file that the command needs is 0 (R298). -/
def MissesFile (i : Instr) (st : State) : Prop :=
  (i.needs.1 = true ∧ st.rkv = false) ∨ (i.needs.2.1 = true ∧ st.sv = false) ∨ (i.needs.2.2.1 = true ∧ st.xv = false)
    ∨ (i.needs.2.2.2 = true ∧ st.wv = false)

/-- The valid flags are the first thing that a command which needs them checks (R298, R307). -/
theorem exec_of_missesFile {i : Instr} {st : State} (h : MissesFile i st) : exec i st = .next (st.setErr 6#3) := by
  unfold MissesFile at h
  cases i with
  | nop | rst | kexp | lds | pad | unpad | sinit => simp [Instr.needs] at h
  | ark r => exact exec_ark_illegal st (by simpa [Instr.needs, or_assoc] using h.imp_right Or.inl)
  | ffwd => exact exec_ffwd_illegal st (by simpa [Instr.needs, or_comm] using h)
  | strk | encb | decb | cbce | cbcd | sts | subb | isubb | shrow | ishrow | mixc | imixc | sinc | ldw | sblk | sapply
    | qr | drnd | serw => exact require_neg st .illegalCommand _ (by simpa [Instr.needs] using h)

/-! ### What a command does not read -/

/-- Two results go on with states of which the second is the image of the first under `f`. -/
def CarriesOver (f : State → State) (r r' : Result) : Prop := ∃ t, r = .next t ∧ r' = .next (f t)

section
variable {f : State → State} {st : State}

/-- A check that reads nothing that `f` changes has one outcome on both states. -/
theorem require_carriesOver (hf : ∀ u e, (f u).setErr e = f (u.setErr e)) {c : Prop} [Decidable c] {e : ErrorKind}
    {rest rest' : c → Result} (h : ∀ hc, CarriesOver f (rest hc) (rest' hc)) :
    CarriesOver f (require c e st rest) (require c e (f st) rest') := by
  by_cases hc : c
  · rw [require_pos st e rest hc, require_pos (f st) e rest' hc]; exact h hc
  · rw [require_neg st e rest hc, require_neg (f st) e rest' hc, hf]; exact ⟨_, rfl, rfl⟩

/-- A function of operands that `f` leaves has one result on both states. -/
theorem attempt_carriesOver (hf : ∀ u e, (f u).setErr e = f (u.setErr e)) {α : Type} {r : Except ErrorKind α}
    {rest rest' : α → Result} (h : ∀ a, CarriesOver f (rest a) (rest' a)) :
    CarriesOver f (attempt r st rest) (attempt r (f st) rest') := by
  cases r with
  | ok a => exact h a
  | error e => rw [attempt_error, attempt_error, hf]; exact ⟨_, rfl, rfl⟩

theorem complete_carriesOver (hf : ∀ u e, (f u).setErr e = f (u.setErr e)) {u v : State} (h : v = f u) :
    CarriesOver f (complete u) (complete v) := by
  rw [h, complete, complete, hf]; exact ⟨_, rfl, rfl⟩

end

/-- The files of the stream unit replaced (R316). -/
def State.withStream (x w : Words 16) (xv wv : Bool) (st : State) : State := { st with x := x, xv := xv, w := w, wv := wv }

/-- The files of the block unit replaced (R316). -/
def State.withBlock (rk : Words 60) (nr : BitVec 4) (s : Words 4) (rkv sv : Bool) (st : State) : State :=
  { st with rk := rk, nr := nr, rkv := rkv, s := s, sv := sv }

theorem out_withBlock (st : State) (v : Bytes) {rk : Words 60} {nr : BitVec 4} {s : Words 4} {rkv sv : Bool} :
    (st.withBlock rk nr s rkv sv).out v = (st.out v).withBlock rk nr s rkv sv := rfl

section
variable {i : Instr} (st : State)

/-- A command of the block unit does on other stream files what it does on the old ones, and leaves them (R316). -/
theorem exec_withStream (h : i.isBlockUnit = true) (x w : Words 16) (xv wv : Bool) :
    CarriesOver (State.withStream x w xv wv) (exec i st) (exec i (st.withStream x w xv wv)) := by
  have hf (u : State) (e : BitVec 3) :
    (u.withStream x w xv wv).setErr e = (u.setErr e).withStream x w xv wv := rfl
  cases i with
  | nop | rst | sinit | sinc | ldw | qr | drnd | ffwd | serw | sblk | sapply => cases h
  | sts | subb | isubb | shrow | ishrow | mixc | imixc => exact require_carriesOver hf fun _ => complete_carriesOver hf rfl
  | strk | lds | ark | pad => exact require_carriesOver hf fun _ => require_carriesOver hf fun _ => complete_carriesOver hf rfl
  | kexp | unpad => exact require_carriesOver hf fun _ => attempt_carriesOver hf fun _ => complete_carriesOver hf rfl
  | encb | decb =>
    exact require_carriesOver hf fun _ => require_carriesOver hf fun _ => require_carriesOver hf fun _ =>
      complete_carriesOver hf rfl
  | cbce =>
    exact require_carriesOver hf fun _ => require_carriesOver hf fun _ => require_carriesOver hf fun _ =>
      require_carriesOver hf fun _ => complete_carriesOver hf rfl
  | cbcd =>
    exact require_carriesOver hf fun _ => require_carriesOver hf fun _ => require_carriesOver hf fun _ =>
      require_carriesOver hf fun _ => attempt_carriesOver hf fun _ => complete_carriesOver hf rfl

/-- A command of the stream unit does on other block files what it does on the old ones, and leaves them (R316). -/
theorem exec_withBlock (h : i.isStreamUnit = true) (rk : Words 60) (nr : BitVec 4) (s : Words 4) (rkv sv : Bool) :
    CarriesOver (State.withBlock rk nr s rkv sv) (exec i st) (exec i (st.withBlock rk nr s rkv sv)) := by
  have hf (u : State) (e : BitVec 3) :
    (u.withBlock rk nr s rkv sv).setErr e = (u.setErr e).withBlock rk nr s rkv sv := rfl
  cases i with
  | nop | rst | kexp | strk | lds | sts | ark | subb | isubb | shrow | ishrow | mixc | imixc | encb | decb | cbce | cbcd
    | pad | unpad => cases h
  | sinc | ldw | drnd | ffwd => exact require_carriesOver hf fun _ => complete_carriesOver hf rfl
  | serw | sblk => exact require_carriesOver hf fun _ => complete_carriesOver hf (out_withBlock st _)
  | qr => exact require_carriesOver hf fun _ => require_carriesOver hf fun _ => complete_carriesOver hf rfl
  | sapply =>
    exact require_carriesOver hf fun _ => require_carriesOver hf fun _ => complete_carriesOver hf (out_withBlock (st.setX _) _)
  | sinit =>
    exact require_carriesOver hf fun _ => require_carriesOver hf fun _ => attempt_carriesOver hf fun _ =>
      complete_carriesOver hf rfl

end

end Sys2Proof.Machine

open Sys2Proof Sys2Proof.Machine

/-- Settles O16: NOP completes with the state it finds, RST and HostReset with the reset state. -/
theorem nopClearsErrAndRstResets : Obligations.NopClearsErrAndRstResets :=
  ⟨rfl, rfl, fun _ => ⟨rfl, rfl, fun _ hp => step_action hp⟩⟩

/-- Settles O57: a failing command writes ERR alone, and a completing one keeps the operands. -/
theorem operandsAreImmutable : Obligations.OperandsAreImmutable := by
  intro i st t hr h
  rcases exec_next h with ⟨e, rfl⟩ | ⟨u, hu, rfl⟩
  · exact ⟨rfl, rfl, rfl, rfl, rfl, rfl, rfl, rfl, rfl, rfl⟩
  · exact hu.operands_eq hr

/-- Settles O52: a command that completes leaves ERR zero, so the failing one wrote its code to ERR and nothing else. -/
theorem failingCommandChangesErrOnly : Obligations.FailingCommandChangesErrOnly := by
  intro i st t h ht
  rcases exec_next h with ⟨e, rfl⟩ | ⟨u, -, rfl⟩
  · rfl
  · exact absurd rfl ht

/-- Settles O55: the flags are checked before anything else. -/
theorem invalidFileFailsIllegalCommand : Obligations.InvalidFileFailsIllegalCommand :=
  fun _ _ h => exec_of_missesFile h

/-- Settles O53: no check and no operand is ERR, and every command ends with a write of it. -/
theorem errIsNoInput : Obligations.ErrIsNoInput := by
  intro i st e
  cases i <;> rfl

/-- Settles O60: a command of one unit carries over to any files of the other; carried over to the files that are there, it
leaves them. -/
theorem unitsDoNotInteract : Obligations.UnitsDoNotInteract := by
  refine fun i st => ⟨fun h x w xv wv => ?block, fun h rk nr s rkv sv => ?stream⟩
  case block =>
    obtain ⟨t, ht, hcarried⟩ := exec_withStream st h x w xv wv
    obtain ⟨u, -, hsame⟩ := exec_withStream st h st.x st.w st.xv st.wv
    obtain rfl : t = u.withStream st.x st.w st.xv st.wv := Host.Outcome.next.inj (ht.symm.trans hsame)
    exact ⟨_, ht, rfl, rfl, rfl, rfl, hcarried⟩
  case stream =>
    obtain ⟨t, ht, hcarried⟩ := exec_withBlock st h rk nr s rkv sv
    obtain ⟨u, -, hsame⟩ := exec_withBlock st h st.rk st.nr st.s st.rkv st.sv
    obtain rfl : t = u.withBlock st.rk st.nr st.s st.rkv st.sv := Host.Outcome.next.inj (ht.symm.trans hsame)
    exact ⟨_, ht, rfl, rfl, rfl, rfl, rfl, hcarried⟩

end

section
/-! PROOFS. The commands issued directly after reset (70_reset_and_hazards.md R331) and the errors that each command can report
(60_exceptions.md R308). -/
namespace Sys2Proof.Machine

/-! ### How KEXP and LDS fail -/

theorem exec_kexp_invalidKeySize (st : State) (h : ¬(st.klen = 16#32 ∨ st.klen = 24#32 ∨ st.klen = 32#32)) :
    exec .kexp st = .next (st.setErr 1#3) :=
  require_neg st .invalidKeySize _ h

theorem exec_lds_invalidBlockSize (st : State) (hd : st.dataFits) (h16 : st.dlen ≠ 16#32) :
    exec .lds st = .next (st.setErr 3#3) :=
  (require_pos st _ _ hd).trans (require_neg st .invalidBlockSize _ h16)

/-! ### After reset -/

section
variable (c : Word)

/-- No flag is set and no error is left (R23). -/
theorem statusWord_resetWith : (State.resetWith c).statusWord = 0#32 := by
  refine BitVec.eq_of_getLsbD_eq fun k _ => ?_
  rw [getLsbD_statusWord]
  simp [State.resetWith, State.ef]

theorem readCsr_resetWith (n : Nat) : (State.resetWith c).readCsr n = if n = 0x0A then c else 0#32 := by
  match n with
  | 1 => exact statusWord_resetWith c
  | 0 | 2 | 3 | 4 | 5 | 6 | 7 | 8 | 9 | 10 => rfl
  | n + 11 => rw [State.readCsr_above (by omega), if_neg (by omega)]

/-- Every buffer is empty, so a byte reads 0 inside the buffer's size as outside. -/
theorem readByte_resetWith (b : Buffer) (i : Nat) : (State.resetWith c).readByte b i = 0#8 := by
  have hempty : ((State.resetWith c).buffer b).read i = 0#8 := by cases b <;> rfl
  rw [State.readByte, hempty, ite_self]

/-- No file holds a value after reset, so a command that needs one misses it (R298). -/
theorem missesFile_resetWith {i : Instr} (hnop : i ≠ .nop) (hrst : i ≠ .rst) (hpad : i ≠ .pad) (hkexp : i ≠ .kexp)
    (hsinit : i ≠ .sinit) (hlds : i ≠ .lds) (hunpad : i ≠ .unpad) : MissesFile i (State.resetWith c) := by
  cases i with
  | nop => exact absurd rfl hnop
  | rst => exact absurd rfl hrst
  | pad => exact absurd rfl hpad
  | kexp => exact absurd rfl hkexp
  | sinit => exact absurd rfl hsinit
  | lds => exact absurd rfl hlds
  | unpad => exact absurd rfl hunpad
  | strk | ark | encb | decb | cbce | cbcd => exact .inl ⟨rfl, rfl⟩
  | sts | subb | isubb | shrow | ishrow | mixc | imixc => exact .inr (.inl ⟨rfl, rfl⟩)
  | sinc | ldw | sblk | sapply | ffwd => exact .inr (.inr (.inl ⟨rfl, rfl⟩))
  | qr | drnd | serw => exact .inr (.inr (.inr ⟨rfl, rfl⟩))

theorem dataFits_resetWith : (State.resetWith c).dataFits := Nat.zero_le _

theorem exec_kexp_resetWith : exec .kexp (State.resetWith c) = .next ((State.resetWith c).setErr 1#3) :=
  exec_kexp_invalidKeySize _ (by simp [State.resetWith])

theorem exec_sinit_resetWith : exec .sinit (State.resetWith c) = .next ((State.resetWith c).setErr 1#3) :=
  exec_sinit_invalidKeySize (State.resetWith c) (Nat.zero_le 12) (by simp [State.resetWith])

theorem exec_lds_resetWith : exec .lds (State.resetWith c) = .next ((State.resetWith c).setErr 3#3) :=
  exec_lds_invalidBlockSize _ (dataFits_resetWith c) (by simp [State.resetWith])

/-- Empty data have no padding to strip (R211). -/
theorem exec_unpad_resetWith : exec .unpad (State.resetWith c) = .next ((State.resetWith c).setErr 5#3) :=
  exec_unpad_invalidPadding _ (dataFits_resetWith c) fun h => h.1 rfl

/-- The padding of empty data is one whole block (R210). -/
theorem exec_pad_resetWith (hc : Config.dcapMin ≤ c) :
    ∃ d, exec .pad (State.resetWith c) = .next { State.resetWith c with dout := d, olen := 16#32 }
      ∧ d.holds 16 fun _ => 0x10#8 := by
  have hfits : (State.resetWith c).paddedFits := (by decide : 16 ≤ Config.dcapMin.toNat).trans hc
  have hbytes : ∀ i < 16, byteAt (padBytes [] 16) i = 0x10#8 := by decide
  rw [exec_pad_of_fits _ (dataFits_resetWith c) hfits]
  exact complete_out (State.resetWith c) (v := padBytes [] 16) (by decide) hbytes

end

/-! ### The errors a command can report -/

/-- The result is a next state whose ERR is 0 or the code of an error of the list. -/
def Reports (l : List ErrorKind) (r : Result) : Prop :=
  ∃ t, r = .next t ∧ (t.err = 0#3 ∨ ∃ e ∈ l, t.err = e.code)

section
variable {l : List ErrorKind} {st : State}

theorem complete_reports : Reports l (complete st) := ⟨_, rfl, .inl rfl⟩

theorem raise_reports {e : ErrorKind} (he : e ∈ l) : Reports l (raise e st) := ⟨_, rfl, .inr ⟨e, he, rfl⟩⟩

theorem require_reports {c : Prop} [Decidable c] {e : ErrorKind} {rest : c → Result} (h : ∀ hc, Reports l (rest hc))
    (he : e ∈ l := by simp [Instr.canReport]) : Reports l (require c e st rest) := by
  by_cases hc : c
  · rw [require_pos st e rest hc]; exact h hc
  · rw [require_neg st e rest hc]; exact raise_reports he

theorem attempt_reports {α : Type} {r : Except ErrorKind α} {rest : α → Result} (he : ∀ e, r = .error e → e ∈ l)
    (h : ∀ a, Reports l (rest a)) : Reports l (attempt r st rest) := by
  cases r with
  | ok a => exact h a
  | error e => exact raise_reports (he e rfl)

end

theorem eq_invalidKeySize_of_expand {key : Bytes} {e : ErrorKind} (h : expand key = .error e) : e = .invalidKeySize := by
  unfold expand at h
  split at h
  · cases h
  · cases h; rfl

theorem eq_invalidKeySize_of_streamInit {k n : Bytes} {ctr : Word} {e : ErrorKind} (h : streamInit k n ctr = .error e) :
    e = .invalidKeySize := by
  unfold streamInit at h
  split at h
  · cases h
  · cases h; rfl

theorem error_of_cbcDecrypt {d iv : Bytes} {rk : Words 60} {n : Nat} {e : ErrorKind} (h : cbcDecrypt d rk n iv = .error e) :
    e = .invalidCiphertextLength ∨ e = .invalidPadding := by
  unfold cbcDecrypt at h
  split at h
  · cases h; exact .inl rfl
  · exact .inr (eq_invalidPadding_of_unpadBytes h)

/-- Every check and every function of a command fails with an error of the command's row (R308). -/
theorem exec_reports (i : Instr) (st : State) : Reports i.canReport (exec i st) := by
  cases i with
  | nop | rst => exact complete_reports
  | sts | subb | isubb | shrow | ishrow | mixc | imixc | sinc | ldw | drnd | ffwd | serw | sblk =>
    exact require_reports fun _ => complete_reports
  | strk | ark | lds | pad | qr | sapply =>
    exact require_reports fun _ => require_reports fun _ => complete_reports
  | kexp =>
    exact require_reports fun _ =>
      attempt_reports (fun e he => by simp [Instr.canReport, eq_invalidKeySize_of_expand he]) fun _ => complete_reports
  | unpad =>
    exact require_reports fun _ =>
      attempt_reports (fun e he => by simp [Instr.canReport, eq_invalidPadding_of_unpadBytes he]) fun _ => complete_reports
  | sinit =>
    exact require_reports fun _ => require_reports fun _ =>
      attempt_reports (fun e he => by simp [Instr.canReport, eq_invalidKeySize_of_streamInit he]) fun _ => complete_reports
  | encb | decb =>
    exact require_reports fun _ => require_reports fun _ => require_reports fun _ => complete_reports
  | cbce =>
    exact require_reports fun _ => require_reports fun _ => require_reports fun _ => require_reports fun _ =>
      complete_reports
  | cbcd =>
    exact require_reports fun _ => require_reports fun _ => require_reports fun _ => require_reports fun _ =>
      attempt_reports (fun e he => by rcases error_of_cbcDecrypt he with rfl | rfl <;> simp [Instr.canReport]) fun _ =>
        complete_reports

/-- No two error kinds have one code (R290). -/
theorem ErrorKind.code_injective {e e' : ErrorKind} (h : e.code = e'.code) : e = e' := by
  revert h
  cases e <;> cases e' <;> decide

/-! ### A state for every error of the table -/

/-- In some state the command raises the error. -/
def CanRaise (i : Instr) (e : ErrorKind) : Prop := ∃ st, exec i st = .next (st.setErr e.code)

/-- An engine just reset but for a schedule, with `n` bytes of data and `m` bytes of IV, all of them zero. -/
def scheduledEngine (n m : Word) : State := { State.reset with rkv := true, dlen := n, ivlen := m }

/-- An engine just reset but for a DLEN above DCAP. -/
def overlongEngine : State := { State.reset with dlen := 4097#32 }

theorem not_dataFits_overlongEngine : ¬overlongEngine.dataFits := by decide

/-- Without a file that it needs, with data that do not fit DIN or with a nonce that does not fit NONCE (R297 to R299). -/
theorem canRaise_illegalCommand {i : Instr} (h : .illegalCommand ∈ i.canReport) : CanRaise i .illegalCommand := by
  cases i with
  | nop | rst | kexp => simp [Instr.canReport] at h
  | lds | pad | unpad => exact ⟨_, require_neg overlongEngine .illegalCommand _ not_dataFits_overlongEngine⟩
  | sinit => exact ⟨{ State.reset with nlen := 13#32 }, exec_sinit_illegal _ (by decide)⟩
  | _ =>
    exact ⟨State.reset, exec_of_missesFile (missesFile_resetWith _ nofun nofun nofun nofun nofun nofun nofun)⟩

/-- The block of zeros, decrypted with a schedule of zeros and no full round, ends with no padding. -/
theorem cbcDecrypt_zeros :
    cbcDecrypt (scheduledEngine 16#32 16#32).dataOperand (scheduledEngine 16#32 16#32).rk
      (scheduledEngine 16#32 16#32).nr.toNat (scheduledEngine 16#32 16#32).ivOperand = .error .invalidPadding := by
  decide +kernel

theorem exec_cbcd_zeros :
    exec .cbcd (scheduledEngine 16#32 16#32) = .next ((scheduledEngine 16#32 16#32).setErr 5#3) :=
  exec_cbcd_invalidPadding _ rfl (by decide) rfl (by decide) (by simp [cbcDecrypt_zeros])

/-- Every error of a command's row is raised in some state (R308). -/
theorem canRaise_of_mem_canReport {i : Instr} {e : ErrorKind} (h : e ∈ i.canReport) : CanRaise i e := by
  cases e with
  | illegalCommand => exact canRaise_illegalCommand h
  | invalidKeySize =>
    obtain rfl | rfl : i = .kexp ∨ i = .sinit := by revert h; cases i <;> simp [Instr.canReport]
    · exact ⟨_, exec_kexp_resetWith 64#32⟩
    · exact ⟨_, exec_sinit_resetWith 64#32⟩
  | invalidIVSize =>
    obtain rfl | rfl : i = .cbce ∨ i = .cbcd := by revert h; cases i <;> simp [Instr.canReport]
    · exact ⟨scheduledEngine 0#32 0#32, exec_cbce_invalidIVSize _ rfl (by decide) (by decide) (by decide)⟩
    · exact ⟨scheduledEngine 0#32 0#32, exec_cbcd_invalidIVSize _ rfl (by decide) (by decide)⟩
  | invalidBlockSize =>
    let emptyData := scheduledEngine 0#32 0#32
    obtain rfl | rfl | rfl : i = .lds ∨ i = .encb ∨ i = .decb := by revert h; cases i <;> simp [Instr.canReport]
    · exact ⟨_, exec_lds_resetWith 64#32⟩
    · exact ⟨emptyData, blockCommand_invalidBlockSize (f := encryptBlock) emptyData rfl (by decide) (by decide)⟩
    · exact ⟨emptyData, blockCommand_invalidBlockSize (f := decryptBlock) emptyData rfl (by decide) (by decide)⟩
  | invalidCiphertextLength =>
    obtain rfl : i = .cbcd := by revert h; cases i <;> simp [Instr.canReport]
    exact ⟨scheduledEngine 0#32 16#32, exec_cbcd_invalidCiphertextLength _ rfl (by decide) rfl (by decide)⟩
  | invalidPadding =>
    obtain rfl | rfl : i = .cbcd ∨ i = .unpad := by revert h; cases i <;> simp [Instr.canReport]
    · exact ⟨_, exec_cbcd_zeros⟩
    · exact ⟨_, exec_unpad_resetWith 64#32⟩

end Sys2Proof.Machine

open Sys2Proof Sys2Proof.Machine

/-- Settles O10: every piece of state is zero but CAP; a command that needs a file fails at once, and each of the seven others
is known by name. -/
theorem resetLeavesTheListedValues : Obligations.ResetLeavesTheListedValues := by
  intro c hc
  refine ⟨readCsr_resetWith c, readByte_resetWith c, fun i h => Vector.getElem_replicate h,
    fun i h => Vector.getElem_replicate h, fun i h => Vector.getElem_replicate h, fun i h => Vector.getElem_replicate h,
    ?system, exec_pad_resetWith c hc, ?keySize, exec_lds_resetWith c, exec_unpad_resetWith c,
    fun i hnop hrst hpad hkexp hsinit hlds hunpad =>
      exec_of_missesFile (missesFile_resetWith c hnop hrst hpad hkexp hsinit hlds hunpad)⟩
  case system => rintro i (rfl | rfl) <;> rfl
  case keySize =>
    rintro i (rfl | rfl)
    · exact exec_kexp_resetWith c
    · exact exec_sinit_resetWith c

/-- Settles O54: a command reports no error but those of its row, and each of those has a state that makes it raise it. -/
theorem commandsReportTheListedErrors : Obligations.CommandsReportTheListedErrors := by
  intro i e
  constructor
  · intro h
    obtain ⟨st, hst⟩ := canRaise_of_mem_canReport h
    exact ⟨st, st.setErr e.code, hst, rfl⟩
  · rintro ⟨st, t, ht, herr⟩
    obtain ⟨u, hu, hcode⟩ := exec_reports i st
    obtain rfl : t = u := Host.Outcome.next.inj (ht.symm.trans hu)
    rcases hcode with hzero | ⟨e', he', hcode⟩
    · exact absurd (herr.symm.trans hzero) e.code_ne_zero
    · rwa [ErrorKind.code_injective (herr.symm.trans hcode)]

end
